-- ==== Sys2Proof/Word.lean ====
section
/-! DEFINITION. The words of MCP-FV (R10, R11) and the plain records built of them: the decoded frame (R14), the object
identifier (R40), the lock entry (R41, R42) and the state names of the two per-pipeline machines (R26, R36). -/

namespace Sys2Proof

/-- R11: a byte is 8 bits. -/
abbrev Byte := BitVec 8

/-- R92: the pipeline index of a port word, 16 bits. -/
abbrev PipeId := BitVec 16

/-- R81: the 13 bytes of a wire frame as one 104-bit number, byte 0 most significant (R11). -/
abbrev WireWord := BitVec 104

/-- R14: the decoded frame. `payload` holds payload byte `i` in bits `63 - 8i : 56 - 8i`, as R81 places it in `W`. -/
structure Frame where
  id : BitVec 29
  len : Fin 9
  payload : BitVec 64
  deriving DecidableEq, Repr

/-- R83: the fields of the 29-bit identifier other than the command. -/
structure Header where
  prio : BitVec 3
  b25 : Bool
  resp : Bool
  hash : BitVec 16
  deriving DecidableEq, Repr

/-- R84, R85: length and payload of a frame. -/
structure Body where
  len : Fin 9
  payload : BitVec 64
  deriving DecidableEq, Repr

/-- R40: the sixteen object kinds, in the order of their codes 0 to 15. -/
inductive ObjType where
  | none | track | signal | switch | accessory | feedback | route | loco
  | multipleUnit | cluster | counter | text | pause | booster | layer | timeTable
  deriving DecidableEq, Repr

/-- R40: an object identifier. `id` is a value of `OBJ_ID_BITS` bits, 0 meaning `None`. -/
structure ObjectId where
  type : ObjType
  id : Nat
  deriving DecidableEq, Repr

/-- R40: the unset identifier. -/
def ObjectId.unset : ObjectId := ⟨.none, 0⟩

/-- R41: the four lock states. -/
inductive LockState where
  | free | reserved | softLocked | hardLocked
  deriving DecidableEq, Repr

/-- R230: one entry of the lock table. -/
structure LockEntry where
  lockState : LockState
  owner : ObjectId
  deriving DecidableEq, Repr

/-- R302: the entry (`Free`, unset). -/
def LockEntry.freeUnset : LockEntry := ⟨.free, .unset⟩

/-- R26: the five states of the reassembler. -/
inductive CdsState where
  | idle | announced | accumulating | complete | crcError
  deriving DecidableEq, Repr

/-- R36: the four states of the inflate handshake. -/
inductive InflState where
  | inflNone | inflPending | inflOk | inflErr
  deriving DecidableEq, Repr

/-- R80: the input ports, in the order of their numbers in `EV_BAD_REQUEST` (R267). -/
inductive Port where
  | rxu | lk | cl | ctl | inf | tx
  deriving DecidableEq, Repr

end Sys2Proof
end

