-- ==== Sys2Proof/Config.lean ====
section
/-! DEFINITION. The configuration record of R8 and the open functions of R9. The record is constant for the life of the
block (R301); State carries it as a field that no step changes, so that a claim quantifies over it (log 4). -/

namespace Sys2Proof

/-- R8: the parameters of an implementation.
`clusterMembers` is the list of the member lists, cluster 0 first. `lockInit` lists the items whose entry after reset is
not (`Free`, unset), with rising item numbers. `triggers` lists the frames for which `TRIGGER_MATCH` holds: a predicate
on the finitely many frames is the list of the frames it accepts (R9, R176; log 4). -/
structure Config where
  nConn : Nat
  nItems : Nat
  objIdBits : Nat
  maxTotal : Nat
  txIdFlags : BitVec 3
  hasLock : Bool
  hasCluster : Bool
  nClusters : Nat
  clusterMembers : List (List (Nat × Bool))
  lockInit : List (Nat × LockEntry)
  triggers : List Frame
  deriving DecidableEq, Repr

/-- R8: the default of every parameter. DESIGN CHOICE (unsafe): R8 leaves `TRIGGER_MATCH` OPEN; the default record holds
the empty set of trigger frames, which is the premise of 95_test_vectors.md (log 4). -/
def Config.default : Config where
  nConn := 1
  nItems := 256
  objIdBits := 16
  maxTotal := 2 ^ 32 - 1
  txIdFlags := 0#3
  hasLock := true
  hasCluster := false
  nClusters := 0
  clusterMembers := []
  lockInit := []
  triggers := []

/-- R9, R221: the external decompressor, OPEN. No rule of the block evaluates it; only `honestAnswer` describes what an
honest inflater says. `none` is `Err` (log 5). -/
opaque Config.inflate : List Byte → BitVec 32 → Option (List Byte)

/-- R9, R120: the hash derivation, OPEN, consulted by no rule (log 5). -/
opaque Config.hashFn : BitVec 32 → BitVec 16

/-- R221: the answer (`ok`, `out_len`) of an honest inflater for a compressed span and the expected length. DESIGN CHOICE
(log 23), twice, where R221 is silent: a length of `2^32` or more is sent modulo `2^32`, and `out_len` is 0 with `ok = 0`. -/
def Config.honestAnswer (span : List Byte) (outLen : BitVec 32) : Bool × BitVec 32 :=
  match Config.inflate span outLen with
  | some bytes => (true, BitVec.ofNat 32 bytes.length)
  | none => (false, 0#32)

end Sys2Proof
end

