-- ==== Sys2Proof/Syntax.lean ====
section
/-! DEFINITION. The transactions of R80 as syntax: one constructor for each mnemonic of spec/opcode_table.json, and the
port words they are read from. -/

namespace Sys2Proof

/-- R80: a word presented at an input port.
`rxu` is the record of R92. `frame` is the same receive port with the wrapper of kind `FRAME` already off, the notation
`rx[c]: <frame>` of R102: the table lists format F and `RX.FRAME` as rows of their own (log 6). `lk` and `cl` are words of
`24 + OBJ_ID_BITS` bits (R93, R95; log 17), `ctl` 24 bits (R96), `inf` 49 bits (R97), `tx` the record of R99. -/
inductive PortWord where
  | rxu (pipe : PipeId) (kind : BitVec 3) (n : BitVec 16) (w : WireWord)
  | frame (pipe : PipeId) (w : WireWord)
  | lk (word : Nat)
  | cl (word : Nat)
  | ctl (word : BitVec 24)
  | inf (word : BitVec 49)
  | tx (pipe : PipeId) (id : BitVec 29) (len : BitVec 4) (payload : BitVec 64)
  deriving DecidableEq, Repr

/-- R80: the input port a word stands at. -/
def PortWord.port : PortWord → Port
  | .rxu .. => .rxu
  | .frame .. => .rxu
  | .lk _ => .lk
  | .cl _ => .cl
  | .ctl _ => .ctl
  | .inf _ => .inf
  | .tx .. => .tx

/-- One constructor for each mnemonic of spec/opcode_table.json. `c` is the pipeline. Ignored bits of a word (transport
flags, padding, don't-care fields) are no operands. -/
inductive Instr where
  /-- `ILLEN`, R115: a frame whose length byte `lenb` is above 8. -/
  | illen (c : PipeId) (lenb : Byte)
  | system (c : PipeId) (h : Header) (b : Body)
  | discovery (c : PipeId) (h : Header) (b : Body)
  | bind (c : PipeId) (h : Header) (b : Body)
  | verify (c : PipeId) (h : Header) (b : Body)
  | speed (c : PipeId) (h : Header) (b : Body)
  | direction (c : PipeId) (h : Header) (b : Body)
  | function (c : PipeId) (h : Header) (b : Body)
  | readConfig (c : PipeId) (h : Header) (b : Body)
  | writeConfig (c : PipeId) (h : Header) (b : Body)
  | accSwitch (c : PipeId) (h : Header) (b : Body)
  | s88A (c : PipeId) (h : Header) (b : Body)
  | s88B (c : PipeId) (h : Header) (b : Body)
  | ping (c : PipeId) (h : Header) (b : Body)
  | bootloader (c : PipeId) (h : Header) (b : Body)
  | cfgStatus (c : PipeId) (h : Header) (b : Body)
  | vendor1E (c : PipeId) (h : Header) (b : Body)
  | vendor1F (c : PipeId) (h : Header) (b : Body)
  | vendor20 (c : PipeId) (h : Header) (b : Body)
  /-- `CDS.ANN6`, R172: announce without flag byte. -/
  | cdsAnn6 (c : PipeId) (h : Header) (total : BitVec 32) (crc : BitVec 16)
  /-- `CDS.ANN7`, R172: announce with flag byte. -/
  | cdsAnn7 (c : PipeId) (h : Header) (total : BitVec 32) (crc : BitVec 16) (flag : Byte)
  /-- `CDS.TRIG`, R177. -/
  | cdsTrig (c : PipeId) (h : Header) (name : BitVec 64)
  /-- `CDS.DATA`, R178 to R180. -/
  | cdsData (c : PipeId) (h : Header) (data : BitVec 64)
  /-- `CDS.SHORT`, R175: a stream frame of length 0 to 5. -/
  | cdsShort (c : PipeId) (h : Header) (b : Body)
  | vendor22 (c : PipeId) (h : Header) (b : Body)
  /-- `UNKNOWN`, R154: a command without a handler. -/
  | unknown (c : PipeId) (cmd : BitVec 8) (h : Header) (b : Body)
  /-- `RX.FRAME`, R115: an RX unit that carries the 13 bytes `w`. -/
  | rxFrame (c : PipeId) (w : WireWord)
  /-- `RX.BADSIZE`, R112: a transport unit of `n` bytes, not 13. -/
  | rxBadsize (c : PipeId) (n : BitVec 16)
  | rxTimeout (c : PipeId)
  | rxClosed (c : PipeId)
  | rxError (c : PipeId)
  | isinuse (item : BitVec 16)
  | reserve (item : BitVec 16) (owner : ObjectId)
  | lock (item : BitVec 16) (owner : ObjectId)
  | release (item : BitVec 16) (owner : ObjectId)
  | canSetOrient (k : BitVec 16) (o : Bool) (loco : ObjectId)
  | setOrient (k : BitVec 16) (o : Bool) (loco : ObjectId)
  | reset
  | pipeStart (c : PipeId)
  | pipeStop (c : PipeId)
  | cdsAck (c : PipeId)
  /-- `INFL_DONE`, R219: the inflater's answer. -/
  | inflDone (c : PipeId) (ok : Bool) (outLen : BitVec 32)
  /-- `ENCODE`, R116: a TX request. `len` is the raw 4-bit field; above 8 it is malformed (R99). -/
  | encode (c : PipeId) (id : BitVec 29) (len : BitVec 4) (payload : BitVec 64)
  deriving DecidableEq, Repr

end Sys2Proof
end

