-- ==== Sys2Proof/Machine/Events.lean ====
section
/-! DEFINITION. The outputs of a step: the events of R267 with their codes and classes, and the records of the other
output ports (R80, R94, R97, R98, R116). -/

namespace Sys2Proof.Machine

/-- R267: the reason of `EV_CDS_IGNORED`. -/
inductive IgnoreReason where
  | shortLen | noSession | hashMismatch
  deriving DecidableEq, Repr

/-- R267: the reason of `EV_DECOMPRESS_ERROR`. -/
inductive InflReason where
  | shortPrefix | inflateFailed | lengthMismatch
  deriving DecidableEq, Repr

/-- R267: the kind of `EV_CONN_DEAD`. -/
inductive DeadKind where
  | closed | error
  deriving DecidableEq, Repr

/-- R267: the operation of `EV_LOCK_FAIL`. -/
inductive LockOp where
  | reserve | lock | release
  deriving DecidableEq, Repr

/-- R267: every event, one constructor each (R266). -/
inductive Event where
  | badSize (c : PipeId) (n : BitVec 16)
  | invalidLength (c : PipeId) (lenb : Byte)
  | badRequest (port : Port)
  | dispatch (c : PipeId) (handler : BitVec 5) (resp : Bool)
  | unknownCmd (c : PipeId) (cmd9 : BitVec 9)
  | cdsAnnounced (c : PipeId) (total : BitVec 32) (crc : BitVec 16) (hash : BitVec 16)
  | cdsData (c : PipeId) (count : BitVec 33)
  | cdsTrigger (c : PipeId) (name : BitVec 64)
  | cdsIgnored (c : PipeId) (reason : IgnoreReason)
  | cdsComplete (c : PipeId) (len : BitVec 32) (compressed : Bool)
  | crcError (c : PipeId) (expected actual : BitVec 16)
  | inflateStart (c : PipeId) (srcAddr : BitVec 33) (srcLen outLen : BitVec 32)
  | decompressError (c : PipeId) (reason : InflReason)
  | announceRefused (c : PipeId) (total : BitVec 32)
  | cdsAcked (c : PipeId)
  | lockChanged (item : BitVec 16) (old new : LockEntry)
  | lockFail (item : BitVec 16) (op : LockOp) (owner : ObjectId)
  | orientChanged (k : BitVec 16) (o : Bool) (loco : ObjectId)
  | orientBlocked (k : BitVec 16) (o : Bool) (loco : ObjectId)
  | connDead (c : PipeId) (kind : DeadKind)
  deriving DecidableEq, Repr

/-- R268: the two classes of events. -/
inductive EventClass where
  | log | notify
  deriving DecidableEq, Repr

/-- R267: the code of an event. -/
def Event.code : Event → BitVec 8
  | .badSize .. => 0x01
  | .invalidLength .. => 0x02
  | .badRequest .. => 0x03
  | .dispatch .. => 0x10
  | .unknownCmd .. => 0x11
  | .cdsAnnounced .. => 0x20
  | .cdsData .. => 0x21
  | .cdsTrigger .. => 0x22
  | .cdsIgnored .. => 0x23
  | .cdsComplete .. => 0x24
  | .crcError .. => 0x25
  | .inflateStart .. => 0x26
  | .decompressError .. => 0x27
  | .announceRefused .. => 0x28
  | .cdsAcked .. => 0x29
  | .lockChanged .. => 0x30
  | .lockFail .. => 0x32
  | .orientChanged .. => 0x38
  | .orientBlocked .. => 0x39
  | .connDead .. => 0x40

/-- R267: the class of an event. -/
def Event.cls : Event → EventClass
  | .badSize .. => .log
  | .invalidLength .. => .log
  | .badRequest .. => .log
  | .dispatch .. => .log
  | .unknownCmd .. => .log
  | .cdsAnnounced .. => .log
  | .cdsData .. => .log
  | .cdsTrigger .. => .log
  | .cdsIgnored .. => .log
  | .cdsComplete .. => .notify
  | .crcError .. => .log
  | .inflateStart .. => .notify
  | .decompressError .. => .log
  | .announceRefused .. => .log
  | .cdsAcked .. => .log
  | .lockChanged .. => .notify
  | .lockFail .. => .log
  | .orientChanged .. => .notify
  | .orientBlocked .. => .log
  | .connDead .. => .log

/-- R267: the number of an ignore reason. -/
def IgnoreReason.code : IgnoreReason → BitVec 8
  | .shortLen => 0 | .noSession => 1 | .hashMismatch => 2

/-- R267: the number of a decompression reason. -/
def InflReason.code : InflReason → BitVec 8
  | .shortPrefix => 0 | .inflateFailed => 1 | .lengthMismatch => 2

/-- R267: the number of a dead kind. -/
def DeadKind.code : DeadKind → BitVec 8
  | .closed => 3 | .error => 4

/-- R267: the number of a lock operation, its `op` field in format LK (R93). -/
def LockOp.code : LockOp → BitVec 2
  | .reserve => 1 | .lock => 2 | .release => 3

/-- R98: the record at the handler port. -/
structure HandlerRecord where
  pipe : PipeId
  handler : BitVec 5
  resp : Bool
  frame : Frame
  sysSubcmd : Byte
  sysSubcmdValid : Bool
  deriving DecidableEq, Repr

/-- R94: the response of the lock port. -/
structure LockResponse where
  ok : Bool
  inUse : Bool
  deriving DecidableEq, Repr

/-- R97: the request to the external inflater. -/
structure InflateRequest where
  pipe : PipeId
  srcAddr : BitVec 33
  srcLen : BitVec 32
  outLen : BitVec 32
  deriving DecidableEq, Repr

/-- R116: the 13 bytes handed to the adapter of a connection. -/
structure TxUnit where
  pipe : PipeId
  bytes : WireWord
  deriving DecidableEq, Repr

/-- R80: everything that leaves the block in one step. Events stand in emission order (R275). -/
structure Outputs where
  events : List Event
  handler : Option HandlerRecord
  lockResponse : Option LockResponse
  clusterOk : Option Bool
  inflateRequest : Option InflateRequest
  tx : Option TxUnit
  deriving DecidableEq, Repr

/-- No output. -/
def Outputs.empty : Outputs := ⟨[], none, none, none, none, none⟩

end Sys2Proof.Machine
end

