-- ==== Sys2Proof/Machine/Memory.lean ====
section
/-! DEFINITION. Sparse data by key, in one canonical form: lists of (key, value) pairs with strictly rising keys. A table
has a default value that it never lists; a receive buffer (R60, R61) lists exactly the bytes that hold a value, so an
unlisted byte holds none (log 9). -/

namespace Sys2Proof.Machine

/-- The value listed for a key. -/
def lookupCell {α : Type} : List (Nat × α) → Nat → Option α
  | [], _ => none
  | e :: m, k => if k = e.1 then some e.2 else lookupCell m k

/-- List a value for a key, keeping the keys rising. -/
def putCell {α : Type} : List (Nat × α) → Nat → α → List (Nat × α)
  | [], k, v => [(k, v)]
  | e :: m, k, v => if k < e.1 then (k, v) :: e :: m else if k = e.1 then (k, v) :: m else e :: putCell m k v

/-- List nothing for a key. -/
def dropCell {α : Type} : List (Nat × α) → Nat → List (Nat × α)
  | [], _ => []
  | e :: m, k => if k = e.1 then dropCell m k else e :: dropCell m k

/-- Strictly rising keys: the canonical order of every table and memory. -/
def keysRise {α : Type} : List (Nat × α) → Bool
  | [] => true
  | e :: m => m.all (fun e' => decide (e.1 < e'.1)) && keysRise m

/-! ## Tables with a default -/

/-- The value of a table at a key: the listed one, else the default `d`. -/
def Table.get {α : Type} (d : α) (m : List (Nat × α)) (k : Nat) : α := (lookupCell m k).getD d

/-- Set a table at a key; the default is not listed. -/
def Table.set {α : Type} [DecidableEq α] (d : α) (m : List (Nat × α)) (k : Nat) (v : α) : List (Nat × α) :=
  if v = d then dropCell m k else putCell m k v

/-- The canonical form of a table: rising keys, the default not listed. -/
def Table.wf {α : Type} [DecidableEq α] (d : α) (m : List (Nat × α)) : Bool :=
  keysRise m && m.all (fun e => decide (e.2 ≠ d))

/-! ## Receive buffers -/

/-- R61: the byte at an address, `none` where no byte holds a value. -/
def Memory.read (m : List Host.Cell) (a : Nat) : Option Byte := lookupCell m a

/-- Write one byte. No value equals "holds no value", so a write always lists the byte. -/
def Memory.write (m : List Host.Cell) (a : Nat) (b : Byte) : List Host.Cell := putCell m a b

/-- R62: write a sequence of bytes at rising addresses. -/
def Memory.writeBytes (m : List Host.Cell) (a : Nat) : List Byte → List Host.Cell
  | [] => m
  | b :: bs => Memory.writeBytes (Memory.write m a b) (a + 1) bs

/-- R63: read `n` bytes at rising addresses, `none` where one of them holds no value. -/
def Memory.readBytes (m : List Host.Cell) (a : Nat) : Nat → Option (List Byte)
  | 0 => some []
  | n + 1 =>
    match Memory.read m a, Memory.readBytes m (a + 1) n with
    | some b, some bs => some (b :: bs)
    | _, _ => none

/-- The canonical form of a buffer: rising addresses. -/
def Memory.wf (m : List Host.Cell) : Bool := keysRise m

end Sys2Proof.Machine
end

