-- ==== Sys2Proof/Machine/Operands.lean ====
section
/-! DEFINITION. Operand assembly: every value a rule extracts from a frame (R83, R86), the handler function (R132), the
object codes (R40) and the tests on object identifiers. -/

namespace Sys2Proof

/-! ## Frames -/

/-- R83: the 29-bit identifier of a header and a command. -/
def frameId (h : Header) (cmd : BitVec 8) : BitVec 29 :=
  h.prio ++ BitVec.ofBool h.b25 ++ cmd ++ BitVec.ofBool h.resp ++ h.hash

/-- The frame with command `cmd`, header `h` and body `b`. -/
def mkFrame (cmd : BitVec 8) (h : Header) (b : Body) : Frame :=
  ⟨frameId h cmd, b.len, b.payload⟩

/-- R14: `prio(f)`. -/
def Frame.prio (f : Frame) : BitVec 3 := f.id.extractLsb' 26 3
/-- R14: `b25(f)`. -/
def Frame.b25 (f : Frame) : Bool := f.id.getLsbD 25
/-- R86: `cmd9(f)`. -/
def Frame.cmd9 (f : Frame) : BitVec 9 := f.id.extractLsb' 16 9
/-- R86: `cmd(f)`. -/
def Frame.cmd (f : Frame) : BitVec 8 := f.id.extractLsb' 17 8
/-- R86: `resp(f)`. -/
def Frame.resp (f : Frame) : Bool := f.id.getLsbD 16
/-- R86: `hash(f)`. -/
def Frame.hash (f : Frame) : BitVec 16 := f.id.extractLsb' 0 16

/-- The header of a frame. -/
def Frame.header (f : Frame) : Header := ⟨f.prio, f.b25, f.resp, f.hash⟩
/-- The body of a frame. -/
def Frame.body (f : Frame) : Body := ⟨f.len, f.payload⟩

/-- R81: payload byte `i`. -/
def payloadByte (d : BitVec 64) (i : Nat) : Byte := d.extractLsb' (56 - 8 * i) 8

/-- R11: the eight payload bytes in order. -/
def payloadBytes (d : BitVec 64) : List Byte :=
  [payloadByte d 0, payloadByte d 1, payloadByte d 2, payloadByte d 3,
   payloadByte d 4, payloadByte d 5, payloadByte d 6, payloadByte d 7]

/-- R85: payload bytes at index `n` and above replaced by zero. -/
def keepBytes (n : Nat) (d : BitVec 64) : BitVec 64 := (d >>> (64 - 8 * n)) <<< (64 - 8 * n)

/-- R117: the canonical form, padding bytes zero. -/
def Body.canonical (b : Body) : Bool := keepBytes b.len.val b.payload == b.payload

/-- R117: a frame in canonical form. -/
def Frame.canonical (f : Frame) : Bool := f.body.canonical

/-- R11: `BE32` of four bytes. -/
def be32 (b0 b1 b2 b3 : Byte) : BitVec 32 := b0 ++ b1 ++ b2 ++ b3

/-- R86: `ann_total(f) = BE32(f.payload, 0)`. -/
def Frame.annTotal (f : Frame) : BitVec 32 := f.payload.extractLsb' 32 32
/-- R86: `ann_crc(f) = BE16(f.payload, 4)`. -/
def Frame.annCrc (f : Frame) : BitVec 16 := f.payload.extractLsb' 16 16
/-- R86: `ann_flag(f) = f.payload[6]`. -/
def Frame.annFlag (f : Frame) : Byte := payloadByte f.payload 6
/-- R86: `sys_subcmd(f) = f.payload[4]`. -/
def Frame.sysSubcmd (f : Frame) : Byte := payloadByte f.payload 4

/-- R172: the payload of a 6-byte announce. -/
def ann6Payload (total : BitVec 32) (crc : BitVec 16) : BitVec 64 := total ++ crc ++ 0#16
/-- R172: the payload of a 7-byte announce. -/
def ann7Payload (total : BitVec 32) (crc : BitVec 16) (flag : Byte) : BitVec 64 := total ++ crc ++ flag ++ 0#8

/-- R87: the 8-bit command of the config-data stream. -/
def cfgDataCmd : BitVec 8 := 0x21#8

/-- R88: the frame of a 6-byte announce. -/
def ann6Frame (h : Header) (total : BitVec 32) (crc : BitVec 16) : Frame :=
  mkFrame cfgDataCmd h ⟨6, ann6Payload total crc⟩
/-- R88: the frame of a 7-byte announce. -/
def ann7Frame (h : Header) (total : BitVec 32) (crc : BitVec 16) (flag : Byte) : Frame :=
  mkFrame cfgDataCmd h ⟨7, ann7Payload total crc flag⟩
/-- R88: the frame of an 8-byte stream frame (trigger or data). -/
def cds8Frame (h : Header) (d : BitVec 64) : Frame := mkFrame cfgDataCmd h ⟨8, d⟩

/-- R176: `TRIGGER_MATCH(f)`, the open parameter, as the configuration gives it. -/
def triggerMatch (cfg : Config) (f : Frame) : Bool := cfg.triggers.contains f

/-- R132: `HANDLER(m)`, 1 to 20, or 0 for an unknown command. -/
def handlerOf (m : BitVec 8) : BitVec 5 :=
  match m.toNat with
  | 0x00 => 1
  | 0x01 => 2
  | 0x02 => 3
  | 0x03 => 4
  | 0x04 => 5
  | 0x05 => 6
  | 0x06 => 7
  | 0x07 => 8
  | 0x08 => 9
  | 0x0B => 10
  | 0x10 => 11
  | 0x11 => 12
  | 0x18 => 13
  | 0x1B => 14
  | 0x1D => 15
  | 0x1E => 16
  | 0x1F => 17
  | 0x20 => 18
  | 0x21 => 19
  | 0x22 => 20
  | _ => 0

/-! ## Objects -/

/-- R40: the code of an object kind. -/
def ObjType.code : ObjType → BitVec 4
  | .none => 0 | .track => 1 | .signal => 2 | .switch => 3
  | .accessory => 4 | .feedback => 5 | .route => 6 | .loco => 7
  | .multipleUnit => 8 | .cluster => 9 | .counter => 10 | .text => 11
  | .pause => 12 | .booster => 13 | .layer => 14 | .timeTable => 15

/-- R40: the object kind of a code. -/
def ObjType.ofCode (t : BitVec 4) : ObjType :=
  match t.toNat with
  | 0 => .none | 1 => .track | 2 => .signal | 3 => .switch
  | 4 => .accessory | 5 => .feedback | 6 => .route | 7 => .loco
  | 8 => .multipleUnit | 9 => .cluster | 10 => .counter | 11 => .text
  | 12 => .pause | 13 => .booster | 14 => .layer | _ => .timeTable

/-- R40: `IsSet(o) = (o.type != 0)`. -/
def ObjectId.isSet (o : ObjectId) : Bool := o.type != .none

/-- R40, R100: ill-formed, exactly one of type and id zero. -/
def ObjectId.illFormed (o : ObjectId) : Bool := (o.type == .none) != (o.id == 0)

/-- R41: the code of a lock state. -/
def LockState.code : LockState → BitVec 2
  | .free => 0 | .reserved => 1 | .softLocked => 2 | .hardLocked => 3

/-- R26: the code of a reassembler state. -/
def CdsState.code : CdsState → BitVec 3
  | .idle => 0 | .announced => 1 | .accumulating => 2 | .complete => 3 | .crcError => 4

/-- R36: the code of an inflate state. -/
def InflState.code : InflState → BitVec 2
  | .inflNone => 0 | .inflPending => 1 | .inflOk => 2 | .inflErr => 3

/-- R267: the port number in `EV_BAD_REQUEST`. -/
def Port.code : Port → BitVec 8
  | .rxu => 0 | .lk => 1 | .cl => 2 | .ctl => 3 | .inf => 4 | .tx => 5

end Sys2Proof
end

