-- ==== Sys2Proof/WellFormed.lean ====
section
/-! DEFINITION. When a term of Instr is what some port word encodes (the operands R81 to R99 can express), and when a
configuration record meets the constraints of R8 and R250. -/

namespace Sys2Proof

/-- The identifier fits the `OBJ_ID_BITS` of the configuration (R40). -/
def ObjectId.fits (cfg : Config) (o : ObjectId) : Bool := decide (o.id < 2 ^ cfg.objIdBits)

/-- The operands are ones the encoding of the instruction admits, and the word would not be another instruction's. -/
def Instr.wf (cfg : Config) : Instr → Bool
  | .illen _ lenb => decide (8 < lenb.toNat)
  | .system _ _ b => b.canonical
  | .discovery _ _ b => b.canonical
  | .bind _ _ b => b.canonical
  | .verify _ _ b => b.canonical
  | .speed _ _ b => b.canonical
  | .direction _ _ b => b.canonical
  | .function _ _ b => b.canonical
  | .readConfig _ _ b => b.canonical
  | .writeConfig _ _ b => b.canonical
  | .accSwitch _ _ b => b.canonical
  | .s88A _ _ b => b.canonical
  | .s88B _ _ b => b.canonical
  | .ping _ _ b => b.canonical
  | .bootloader _ _ b => b.canonical
  | .cfgStatus _ _ b => b.canonical
  | .vendor1E _ _ b => b.canonical
  | .vendor1F _ _ b => b.canonical
  | .vendor20 _ _ b => b.canonical
  | .cdsAnn6 .. => true
  | .cdsAnn7 .. => true
  | .cdsTrig _ h name => triggerMatch cfg (cds8Frame h name)
  | .cdsData _ h data => !triggerMatch cfg (cds8Frame h data)
  | .cdsShort _ _ b => b.canonical && decide (b.len.val ≤ 5)
  | .vendor22 _ _ b => b.canonical
  | .unknown _ cmd _ b => b.canonical && handlerOf cmd == 0
  | .rxFrame .. => true
  | .rxBadsize _ n => n != 13
  | .rxTimeout _ => true
  | .rxClosed _ => true
  | .rxError _ => true
  | .isinuse _ => true
  | .reserve _ o => o.fits cfg
  | .lock _ o => o.fits cfg
  | .release _ o => o.fits cfg
  | .canSetOrient _ _ o => o.fits cfg
  | .setOrient _ _ o => o.fits cfg
  | .reset => true
  | .pipeStart _ => true
  | .pipeStop _ => true
  | .cdsAck _ => true
  | .inflDone .. => true
  | .encode .. => true

/-- The word fits its port: R93 and R95 give `lk` and `cl` words `24 + OBJ_ID_BITS` bits, the other widths are types. -/
def PortWord.wf (cfg : Config) : PortWord → Bool
  | .rxu .. => true
  | .frame .. => true
  | .lk w => decide (w < 2 ^ (24 + cfg.objIdBits))
  | .cl w => decide (w < 2 ^ (24 + cfg.objIdBits))
  | .ctl _ => true
  | .inf _ => true
  | .tx .. => true

/-- R8, R250: the constraints on the configuration record. `lockInit` may hold desync entries (R42) and `SoftLocked`
ones (R240); its identifiers are well-formed and fit `OBJ_ID_BITS` (R40). -/
def Config.wf (cfg : Config) : Bool :=
  decide (1 ≤ cfg.nConn) && decide (cfg.nItems ≤ 2 ^ 16) &&
  decide (cfg.maxTotal ≤ 2 ^ 32 - 1) && (!cfg.hasCluster || cfg.hasLock) &&
  decide (cfg.clusterMembers.length = cfg.nClusters) &&
  cfg.clusterMembers.flatten.all (fun m => decide (m.1 < cfg.nItems)) &&
  decide (List.Nodup (cfg.clusterMembers.flatten.map (·.1))) &&
  Machine.keysRise cfg.lockInit &&
  cfg.lockInit.all (fun e => decide (e.1 < cfg.nItems) && e.2 != .freeUnset && !e.2.owner.illFormed &&
    e.2.owner.fits cfg)

end Sys2Proof
end

