-- ==== Sys2Proof/Machine/State.lean ====
section
/-! DEFINITION. The state of MCP-FV (R20) as plain data, the state after reset (R49), and the reasons a step can stop. -/

namespace Sys2Proof.Machine

/-- R26 to R38, R47: the state of one RX pipeline. `buf` lists the bytes that hold a value (log 9). -/
structure Pipe where
  cdsState : CdsState
  totalSize : BitVec 32
  crcAnn : BitVec 16
  crcCalc : BitVec 16
  flag : BitVec 8
  flagValid : Bool
  rxCount : BitVec 33
  sessHash : BitVec 16
  name : BitVec 64
  nameValid : Bool
  compressed : Bool
  inflSize : BitVec 32
  inflState : InflState
  run : Bool
  alive : Bool
  buf : List Host.Cell
  deriving DecidableEq, Repr

/-- R49: a pipeline after reset. -/
def Pipe.reset : Pipe where
  cdsState := .idle
  totalSize := 0
  crcAnn := 0
  crcCalc := 0
  flag := 0
  flagValid := false
  rxCount := 0
  sessHash := 0
  name := 0
  nameValid := false
  compressed := false
  inflSize := 0
  inflState := .inflNone
  run := false
  alive := false
  buf := []

/-- R20: the state of the block. Each table is in canonical form: `pipes` lists no pipeline in its reset state, `locks` no
(`Free`, unset) entry, `orient` and `clOrient` no 0. `cfg` is the configuration (log 4), `pending` the transactions
presented and not yet taken, in the order the ports offer them (log 1), `out` the outputs of the latest step (log 3):
the model's own fields. -/
structure State where
  cfg : Config
  pipes : List (Nat × Pipe)
  locks : List (Nat × LockEntry)
  orient : List (Nat × Bool)
  clOrient : List (Nat × Bool)
  pending : List PortWord
  out : Outputs
  deriving DecidableEq, Repr

/-- R49, R300: the state after reset of a block with configuration `cfg`, nothing presented. -/
def State.powerOn (cfg : Config) : State where
  cfg := cfg
  pipes := []
  locks := if cfg.hasLock then cfg.lockInit else []
  orient := []
  clOrient := []
  pending := []
  out := .empty

/-- R49: the machine right after reset, with the default configuration of R8. -/
def State.reset : State := State.powerOn .default

/-- The reasons a step stops with a fault. The spec gives the block no fault state (R15); both are raised only in states
that no run reaches (a buffer that disagrees with `rx_count`), and both are safe: the model stops where the spec gives
no effect. -/
inductive Fault where
  /-- R60, R62: a data frame would be written outside the `total_size + 8` bytes of the buffer. Raised by `CDS.DATA` and
  `RX.FRAME`; safe (log 10). -/
  | bufferRange
  /-- R61, R63: the completion step reads a byte that holds no value. Raised by `CDS.DATA` and `RX.FRAME`; safe (log 9). -/
  | bufferRead
  deriving DecidableEq, Repr

/-- The reasons a step is refused. -/
inductive Refusal where
  /-- An instruction without a meaning in the model, by its mnemonic; raised by no arm of `exec`; safe. -/
  | notModelled (mnemonic : String)
  deriving DecidableEq, Repr

end Sys2Proof.Machine
end

