-- ==== Sys2Proof/Machine/Ops.lean ====
section
/-! DEFINITION. The named operations over State: access to pipelines, lock entries and orientation bits, the receive
buffer (R60 to R65), the event port (R266) and the refusal of malformed words (R100). The block has no exceptions (R272):
`emit` and `badRequest` are what it has in their place, and nothing returns. -/

namespace Sys2Proof.Machine

/-! ## Access to State -/

/-- R20: `pipe[c]`. -/
def State.pipe (s : State) (c : Nat) : Pipe := Table.get .reset s.pipes c

/-- R20: write `pipe[c]`. -/
def State.setPipe (s : State) (c : Nat) (p : Pipe) : State := { s with pipes := Table.set .reset s.pipes c p }

/-- R41, R42: `lock[i]`. -/
def State.lock (s : State) (i : Nat) : LockEntry := Table.get .freeUnset s.locks i

/-- R43: write `lock[i]`. -/
def State.setLock (s : State) (i : Nat) (e : LockEntry) : State := { s with locks := Table.set .freeUnset s.locks i e }

/-- R45: `orient[i]`. -/
def State.orientOf (s : State) (i : Nat) : Bool := Table.get false s.orient i

/-- R46: `cl_orient[k]`. -/
def State.clOrientOf (s : State) (k : Nat) : Bool := Table.get false s.clOrient k

/-! ## Outputs -/

/-- A step begins with empty outputs: the pulses of the step before are gone (R266). -/
def State.begin (s : State) : State := { s with out := .empty }

/-- R12: `emit E(args)`. -/
def State.emit (s : State) (e : Event) : State := { s with out := { s.out with events := s.out.events ++ [e] } }

/-- R94, R100: the response of a refused word, where the port has one. -/
def refusedResponse (p : Port) (o : Outputs) : Outputs :=
  match p with
  | .lk => { o with lockResponse := some ⟨false, false⟩ }
  | .cl => { o with clusterOk := some false }
  | .rxu => o
  | .ctl => o
  | .inf => o
  | .tx => o

/-- R100, R270: a word is refused: no state change, `EV_BAD_REQUEST`, `ok = 0` in the response where there is one. -/
def State.badRequest (s : State) (p : Port) : State :=
  { s with out := { refusedResponse p s.out with events := s.out.events ++ [.badRequest p] } }

/-! ## The enable condition -/

/-- R111: pipeline `p` takes RX units. -/
def Pipe.enabled (p : Pipe) : Bool := p.run && p.alive && p.inflState != .inflPending

/-- R8, R100: `c` names a pipeline. -/
def State.hasPipe (s : State) (c : PipeId) : Bool := decide (c.toNat < s.cfg.nConn)

/-- R111, R100, R274: an RX transaction of pipeline `c`. A unit that is not enabled changes nothing; a `pipe` index out of
range is refused. -/
def rxGate (c : PipeId) (s : State) (k : State → Host.Outcome State Fault Refusal) : Host.Outcome State Fault Refusal :=
  if s.hasPipe c then
    if (s.pipe c.toNat).enabled then k s.begin else .next s.begin
  else .next (s.begin.badRequest .rxu)

/-! ## The receive buffer -/

/-- R61: a buffer byte as a reader sees it: `none` where it holds no value. -/
def Pipe.byteAt (p : Pipe) (a : Nat) : Option Byte := if a < p.rxCount.toNat then Memory.read p.buf a else none

/-- R63: `MemRead(c, addr, n)`, `none` where the read is refused. -/
def memRead (p : Pipe) (addr n : Nat) : Option (List Byte) :=
  if addr + n ≤ p.rxCount.toNat then Memory.readBytes p.buf addr n else none

/-- R62: `MemWrite(c, rx_count, 8, d)` and the caller's `rx_count <- rx_count + 8`; `none` where a byte would lie outside
the `total_size + 8` bytes of R60. -/
def memWrite8 (p : Pipe) (d : BitVec 64) : Option Pipe :=
  if p.rxCount.toNat ≤ p.totalSize.toNat then
    some { p with
      buf := Memory.writeBytes p.buf p.rxCount.toNat (payloadBytes d)
      rxCount := p.rxCount + 8 }
  else none

/-! ## Session registers -/

/-- R185: `clear_session`. `run` and `alive` are no session registers. -/
def Pipe.clearSession (p : Pipe) : Pipe := { Pipe.reset with run := p.run, alive := p.alive }

/-- What a stream operation does to its pipeline: the new state, the events in order, and the request to the inflater. -/
structure PipeEffect where
  pipe : Pipe
  events : List Event
  request : Option InflateRequest
  deriving DecidableEq, Repr

/-- Carry out a stream operation's effect on pipeline `c`. -/
def State.applyPipe (s : State) (c : PipeId) (e : PipeEffect) : State :=
  { s.setPipe c.toNat e.pipe with
    out := { s.out with events := s.out.events ++ e.events, inflateRequest := e.request } }

end Sys2Proof.Machine
end

