-- ==== Sys2Proof/Machine/Flags.lean ====
section
/-! DEFINITION. Result bits (R25): the block has no persistent flags; these are the bits a transaction returns in its own
step (R94). -/

namespace Sys2Proof.Machine

/-- R94: the response of `RESERVE`, `LOCK` and `RELEASE`: `ok`, with `in_use = 0`. -/
def State.respondLock (s : State) (ok : Bool) : State := { s with out := { s.out with lockResponse := some ⟨ok, false⟩ } }

/-- R94: the response of `ISINUSE` on a valid item: `ok = 1` and the answer. -/
def State.respondInUse (s : State) (inUse : Bool) : State :=
  { s with out := { s.out with lockResponse := some ⟨true, inUse⟩ } }

/-- R94: the response of the cluster port. -/
def State.respondCluster (s : State) (ok : Bool) : State := { s with out := { s.out with clusterOk := some ok } }

end Sys2Proof.Machine
end

