-- ==== Sys2Proof/Machine/Cluster.lean ====
section
/-! DEFINITION. The cluster orientation coordinator (46_cluster_option.md), present when `HAS_CLUSTER = 1`. -/

namespace Sys2Proof.Machine

/-- R250: `CLUSTER_MEMBERS[k]`. -/
def clusterMembersOf (cfg : Config) (k : Nat) : List (Nat × Bool) := (cfg.clusterMembers[k]?).getD []

/-- R251: the effective orientation of a member. -/
def effOrient (s : State) (m : Nat × Bool) : Bool := s.orientOf m.1 ^^ m.2

/-- R251: the orientation a cluster orientation `o` requires of a member. -/
def reqOrient (o : Bool) (m : Nat × Bool) : Bool := o ^^ m.2

/-- R252: `held_by_other`. -/
def heldByOther (s : State) (m : Nat × Bool) (loco : ObjectId) : Bool :=
  let e := s.lock m.1
  e.lockState != .free && !(e.lockState == .reserved && e.owner == loco)

/-- R253: the member blocks the change. -/
def blocks (s : State) (o : Bool) (loco : ObjectId) (m : Nat × Bool) : Bool :=
  heldByOther s m loco && effOrient s m != reqOrient o m

/-- R253: `can_set`. -/
def canSet (s : State) (k : Nat) (o : Bool) (loco : ObjectId) : Bool :=
  o == s.clOrientOf k || (clusterMembersOf s.cfg k).all fun m => !blocks s o loco m

/-- R254: force the orientation of a list of members. -/
def forceOrient (t : List (Nat × Bool)) (o : Bool) : List (Nat × Bool) → List (Nat × Bool)
  | [] => t
  | m :: ms => forceOrient (Table.set false t m.1 o) o ms

/-- R95, R100: the request is well-formed. -/
def State.clusterRequestOk (s : State) (k : BitVec 16) (loco : ObjectId) : Bool :=
  s.cfg.hasCluster && decide (k.toNat < s.cfg.nClusters) && !loco.illFormed

/-- R254: a change that nothing blocks. -/
def State.orientChanged (s : State) (k : Nat) (o : Bool) : State :=
  { s with
    orient := forceOrient s.orient o (clusterMembersOf s.cfg k)
    clOrient := Table.set false s.clOrient k o }

/-- `CAN_SET_ORIENT`, R253. -/
def execCanSetOrient (k : BitVec 16) (o : Bool) (loco : ObjectId) (s : State) : Host.Outcome State Fault Refusal :=
  if s.clusterRequestOk k loco then .next (s.begin.respondCluster (canSet s k.toNat o loco))
  else .next (s.begin.badRequest .cl)

/-- `SET_ORIENT`, R254. -/
def execSetOrient (k : BitVec 16) (o : Bool) (loco : ObjectId) (s : State) : Host.Outcome State Fault Refusal :=
  if s.clusterRequestOk k loco then
    if o = s.clOrientOf k.toNat then .next (s.begin.respondCluster true)
    else if canSet s k.toNat o loco then
      .next (((s.begin.orientChanged k.toNat o).respondCluster true).emit (.orientChanged k o loco))
    else .next ((s.begin.respondCluster false).emit (.orientBlocked k o loco))
  else .next (s.begin.badRequest .cl)

end Sys2Proof.Machine
end

