-- ==== Sys2Proof/Machine/Crc.lean ====
section
/-! DEFINITION. The CRC-16/CCITT engine (R200 to R206). The polynomial, the bit order and the absence of a final XOR are
R201's, which takes them from general knowledge by decision D25: PRESUMED by the spec itself (log 11). -/

namespace Sys2Proof.Machine

/-- R202: one shift of the register. -/
def crcShift (r : BitVec 16) : BitVec 16 := if r.getLsbD 15 then (r <<< 1) ^^^ 0x1021#16 else r <<< 1

/-- R202: `n` shifts. -/
def crcShifts : Nat → BitVec 16 → BitVec 16
  | 0, r => r
  | n + 1, r => crcShifts n (crcShift r)

/-- R202: `crc16_update(r, b)`. -/
def crcUpdate (r : BitVec 16) (b : Byte) : BitVec 16 := crcShifts 8 (r ^^^ (b.setWidth 16 <<< 8))

/-- R203, R209: fold `crc16_update` over a sequence, from register `r`. -/
def crcFold (r : BitVec 16) : List Byte → BitVec 16
  | [] => r
  | b :: bs => crcFold (crcUpdate r b) bs

/-- R203: `crc16_ccitt(d)`, seed `0xFFFF`. -/
def crc16 (d : List Byte) : BitVec 16 := crcFold 0xFFFF#16 d

/-- R204: the byte-at-a-time form of `crc16_update`. -/
def crcUpdateByte (r : BitVec 16) (b : Byte) : BitVec 16 :=
  let x0 : Byte := (r >>> 8).setWidth 8 ^^^ b
  let x : BitVec 16 := (x0 ^^^ (x0 >>> 4)).setWidth 16
  (r <<< 8) ^^^ (x <<< 12) ^^^ (x <<< 5) ^^^ x

end Sys2Proof.Machine
end

