-- ==== Sys2Proof/Machine/Inflate.lean ====
section
/-! DEFINITION. Deflate decompression control (44_inflate_control.md): detection of a compressed stream, the request to
the external inflater, and `INFL_DONE`. -/

namespace Sys2Proof.Machine

/-- R181, R216: a stored stream is complete. -/
def storedStream (c : PipeId) (p : Pipe) : PipeEffect :=
  ⟨{ p with compressed := false, inflSize := 0, inflState := .inflNone }, [.cdsComplete c p.totalSize false], none⟩

/-- R97, R218: the request of `start_inflate`. -/
def inflateRequest (c : PipeId) (p : Pipe) : InflateRequest := ⟨c, 4, p.totalSize - 4, p.inflSize⟩

/-- R217, R218: `read_size` and `start_inflate`. -/
def startInflate (c : PipeId) (p : Pipe) : Except Fault PipeEffect :=
  match memRead p 0 4 with
  | some [b0, b1, b2, b3] =>
    let p1 := { p with inflSize := be32 b0 b1 b2 b3, inflState := .inflPending }
    let r := inflateRequest c p1
    .ok ⟨p1, [.inflateStart c r.srcAddr r.srcLen r.outLen], some r⟩
  | _ => .error .bufferRead

/-- R216: `detect_compressed`, with R181's event for a stored stream. -/
def detectCompressed (c : PipeId) (p : Pipe) : Except Fault PipeEffect :=
  if 1 ≤ p.totalSize.toNat then
    match memRead p 0 1 with
    | some [b] =>
      if b = 0#8 then
        if p.totalSize.toNat < 4 then
          .ok ⟨{ p with compressed := true, inflState := .inflErr }, [.decompressError c .shortPrefix], none⟩
        else startInflate c { p with compressed := true }
      else .ok (storedStream c p)
    | _ => .error .bufferRead
  else .ok (storedStream c p)

/-- R219: what an accepted answer of the inflater does. -/
def inflateAnswer (c : PipeId) (ok : Bool) (outLen : BitVec 32) (p : Pipe) : PipeEffect :=
  if ok && outLen == p.inflSize then
    ⟨{ p with inflState := .inflOk }, [.cdsComplete c p.inflSize true], none⟩
  else
    ⟨{ p with inflState := .inflErr },
     [.decompressError c (if ok then .lengthMismatch else .inflateFailed)], none⟩

/-- R219, R100: `INFL_DONE`. -/
def execInflDone (c : PipeId) (ok : Bool) (outLen : BitVec 32) (s : State) : Host.Outcome State Fault Refusal :=
  if s.hasPipe c && (s.pipe c.toNat).inflState == .inflPending then
    .next (s.begin.applyPipe c (inflateAnswer c ok outLen (s.pipe c.toNat)))
  else .next (s.begin.badRequest .inf)

end Sys2Proof.Machine
end

