-- ==== Sys2Proof/Machine/Stream.lean ====
section
/-! DEFINITION. The config-data-stream reassembler (42_config_data_stream.md) as operations on one pipeline, and
`cds_step` (R171). -/

namespace Sys2Proof.Machine

/-- A stream operation without a request to the inflater. -/
def PipeEffect.plain (p : Pipe) (events : List Event) : PipeEffect := ⟨p, events, none⟩

/-- R175, R179, R180: an ignored stream frame. -/
def ignoreFrame (c : PipeId) (r : IgnoreReason) (p : Pipe) : PipeEffect := .plain p [.cdsIgnored c r]

/-- R172, R173: announce. `flag` is the seventh payload byte, if the frame has one. -/
def announce (cfg : Config) (c : PipeId) (hash : BitVec 16) (total : BitVec 32) (crc : BitVec 16) (flag : Option Byte)
    (p : Pipe) : PipeEffect :=
  if cfg.maxTotal < total.toNat then .plain p.clearSession [.announceRefused c total]
  else
    .plain
      { p with
        totalSize := total
        crcAnn := crc
        flag := flag.getD 0
        flagValid := flag.isSome
        sessHash := hash
        rxCount := 0
        buf := []
        crcCalc := 0
        compressed := false
        inflSize := 0
        inflState := .inflNone
        cdsState := .announced }
      [.cdsAnnounced c total crc hash]

/-- R177: trigger. -/
def trigger (c : PipeId) (name : BitVec 64) (p : Pipe) : PipeEffect :=
  .plain { p with name := name, nameValid := true } [.cdsTrigger c name]

/-- R178: a session is open. -/
def Pipe.sessionOpen (p : Pipe) : Bool := p.cdsState == .announced || p.cdsState == .accumulating

/-- R182: a CRC mismatch. -/
def crcMismatch (c : PipeId) (p : Pipe) : PipeEffect :=
  .plain
    { p with
      cdsState := .crcError
      rxCount := 0
      buf := []
      compressed := false
      inflSize := 0
      inflState := .inflNone
      name := 0
      nameValid := false }
    [.crcError c p.crcAnn p.crcCalc]

/-- R183, R206, R181: completion, entered with the new `rx_count >= total_size`. -/
def complete (c : PipeId) (p : Pipe) : Except Fault PipeEffect :=
  match memRead p 0 p.totalSize.toNat with
  | none => .error .bufferRead
  | some d =>
    let p1 := { p with crcCalc := crc16 d }
    if p1.crcCalc = p1.crcAnn then detectCompressed c { p1 with cdsState := .complete } else .ok (crcMismatch c p1)

/-- R178: an accepted data frame, up to its completion test. -/
def appendData (c : PipeId) (p : Pipe) : Except Fault PipeEffect :=
  let e : Event := .cdsData c p.rxCount
  if p.totalSize.toNat ≤ p.rxCount.toNat then
    match complete c p with
    | .ok r => .ok { r with events := e :: r.events }
    | .error f => .error f
  else .ok (.plain p [e])

/-- R178 to R180: a data frame. -/
def dataFrame (c : PipeId) (hash : BitVec 16) (data : BitVec 64) (p : Pipe) : Except Fault PipeEffect :=
  if p.sessionOpen then
    if hash = p.sessHash then
      match memWrite8 p data with
      | none => .error .bufferRange
      | some p1 => appendData c { p1 with cdsState := .accumulating }
    else .ok (ignoreFrame c .hashMismatch p)
  else .ok (ignoreFrame c .noSession p)

/-- R171: `cds_step`, by the length of the frame. -/
def cdsStep (cfg : Config) (c : PipeId) (f : Frame) (p : Pipe) : Except Fault PipeEffect :=
  match f.len.val with
  | 6 => .ok (announce cfg c f.hash f.annTotal f.annCrc none p)
  | 7 => .ok (announce cfg c f.hash f.annTotal f.annCrc (some f.annFlag) p)
  | 8 => if triggerMatch cfg f then .ok (trigger c f.payload p) else dataFrame c f.hash f.payload p
  | _ => .ok (ignoreFrame c .shortLen p)

/-- The outcome of a stream operation on pipeline `c`. -/
def State.finishPipe (s : State) (c : PipeId) : Except Fault PipeEffect → Host.Outcome State Fault Refusal
  | .ok e => .next (s.applyPipe c e)
  | .error r => .fault r

end Sys2Proof.Machine
end

