-- ==== Sys2Proof/Machine/Command.lean ====
section
/-! DEFINITION. The command dispatcher (41_dispatcher.md): `dispatch` (R130) and the meaning of each format F row. A frame
is a receive transaction, so each meaning stands behind the enable condition of R111. -/

namespace Sys2Proof.Machine

/-- R98, R130: the handler-port record. -/
def handlerRecord (c : PipeId) (h : BitVec 5) (f : Frame) : HandlerRecord :=
  ⟨c, h, f.resp, f, f.sysSubcmd, h == 1 && decide (5 ≤ f.len.val)⟩

/-- R130: the handler-port record and `EV_DISPATCH`. -/
def State.routed (s : State) (c : PipeId) (h : BitVec 5) (f : Frame) : State :=
  { s with out := { s.out with
      handler := some (handlerRecord c h f)
      events := s.out.events ++ [.dispatch c h f.resp] } }

/-- R130: `dispatch(c, f)`. -/
def dispatch (c : PipeId) (f : Frame) (s : State) : Host.Outcome State Fault Refusal :=
  let h := handlerOf f.cmd
  if h = 0 then .next (s.emit (.unknownCmd c f.cmd9))
  else if h = 19 then (s.routed c h f).finishPipe c (cdsStep s.cfg c f (s.pipe c.toNat))
  else .next (s.routed c h f)

/-- R130, R131: a frame whose handler is outside the block. -/
def routeOnly (c : PipeId) (h : BitVec 5) (f : Frame) (s : State) : Host.Outcome State Fault Refusal :=
  rxGate c s fun s => .next (s.routed c h f)

/-- R152: a frame of the config-data stream; `op` is its sub-form's operation on the pipeline. -/
def streamFrame (c : PipeId) (f : Frame) (op : Config → Pipe → Except Fault PipeEffect) (s : State) :
    Host.Outcome State Fault Refusal :=
  rxGate c s fun s => (s.routed c 19 f).finishPipe c (op s.cfg (s.pipe c.toNat))

/-- `ILLEN`, R115. -/
def execIllen (c : PipeId) (lenb : Byte) (s : State) : Host.Outcome State Fault Refusal :=
  rxGate c s fun s => .next (s.emit (.invalidLength c lenb))

/-- `SYSTEM`, R134. -/
def execSystem (c : PipeId) (h : Header) (b : Body) (s : State) : Host.Outcome State Fault Refusal :=
  routeOnly c 1 (mkFrame 0x00#8 h b) s

/-- `DISCOVERY`, R135. -/
def execDiscovery (c : PipeId) (h : Header) (b : Body) (s : State) : Host.Outcome State Fault Refusal :=
  routeOnly c 2 (mkFrame 0x01#8 h b) s

/-- `BIND`, R136. -/
def execBind (c : PipeId) (h : Header) (b : Body) (s : State) : Host.Outcome State Fault Refusal :=
  routeOnly c 3 (mkFrame 0x02#8 h b) s

/-- `VERIFY`, R137. -/
def execVerify (c : PipeId) (h : Header) (b : Body) (s : State) : Host.Outcome State Fault Refusal :=
  routeOnly c 4 (mkFrame 0x03#8 h b) s

/-- `SPEED`, R138. -/
def execSpeed (c : PipeId) (h : Header) (b : Body) (s : State) : Host.Outcome State Fault Refusal :=
  routeOnly c 5 (mkFrame 0x04#8 h b) s

/-- `DIRECTION`, R139. -/
def execDirection (c : PipeId) (h : Header) (b : Body) (s : State) : Host.Outcome State Fault Refusal :=
  routeOnly c 6 (mkFrame 0x05#8 h b) s

/-- `FUNCTION`, R140. -/
def execFunction (c : PipeId) (h : Header) (b : Body) (s : State) : Host.Outcome State Fault Refusal :=
  routeOnly c 7 (mkFrame 0x06#8 h b) s

/-- `READ_CONFIG`, R141. -/
def execReadConfig (c : PipeId) (h : Header) (b : Body) (s : State) : Host.Outcome State Fault Refusal :=
  routeOnly c 8 (mkFrame 0x07#8 h b) s

/-- `WRITE_CONFIG`, R142. -/
def execWriteConfig (c : PipeId) (h : Header) (b : Body) (s : State) : Host.Outcome State Fault Refusal :=
  routeOnly c 9 (mkFrame 0x08#8 h b) s

/-- `ACC_SWITCH`, R143. -/
def execAccSwitch (c : PipeId) (h : Header) (b : Body) (s : State) : Host.Outcome State Fault Refusal :=
  routeOnly c 10 (mkFrame 0x0B#8 h b) s

/-- `S88_A`, R144. -/
def execS88A (c : PipeId) (h : Header) (b : Body) (s : State) : Host.Outcome State Fault Refusal :=
  routeOnly c 11 (mkFrame 0x10#8 h b) s

/-- `S88_B`, R145. -/
def execS88B (c : PipeId) (h : Header) (b : Body) (s : State) : Host.Outcome State Fault Refusal :=
  routeOnly c 12 (mkFrame 0x11#8 h b) s

/-- `PING`, R146. -/
def execPing (c : PipeId) (h : Header) (b : Body) (s : State) : Host.Outcome State Fault Refusal :=
  routeOnly c 13 (mkFrame 0x18#8 h b) s

/-- `BOOTLOADER`, R147. -/
def execBootloader (c : PipeId) (h : Header) (b : Body) (s : State) : Host.Outcome State Fault Refusal :=
  routeOnly c 14 (mkFrame 0x1B#8 h b) s

/-- `CFG_STATUS`, R148. -/
def execCfgStatus (c : PipeId) (h : Header) (b : Body) (s : State) : Host.Outcome State Fault Refusal :=
  routeOnly c 15 (mkFrame 0x1D#8 h b) s

/-- `VENDOR_1E`, R149. -/
def execVendor1E (c : PipeId) (h : Header) (b : Body) (s : State) : Host.Outcome State Fault Refusal :=
  routeOnly c 16 (mkFrame 0x1E#8 h b) s

/-- `VENDOR_1F`, R150. -/
def execVendor1F (c : PipeId) (h : Header) (b : Body) (s : State) : Host.Outcome State Fault Refusal :=
  routeOnly c 17 (mkFrame 0x1F#8 h b) s

/-- `VENDOR_20`, R151. -/
def execVendor20 (c : PipeId) (h : Header) (b : Body) (s : State) : Host.Outcome State Fault Refusal :=
  routeOnly c 18 (mkFrame 0x20#8 h b) s

/-- `CDS.ANN6`, R172, R173. -/
def execCdsAnn6 (c : PipeId) (h : Header) (total : BitVec 32) (crc : BitVec 16) (s : State) :
    Host.Outcome State Fault Refusal :=
  streamFrame c (ann6Frame h total crc) (fun cfg p => .ok (announce cfg c h.hash total crc none p)) s

/-- `CDS.ANN7`, R172, R173. -/
def execCdsAnn7 (c : PipeId) (h : Header) (total : BitVec 32) (crc : BitVec 16) (flag : Byte) (s : State) :
    Host.Outcome State Fault Refusal :=
  streamFrame c (ann7Frame h total crc flag) (fun cfg p => .ok (announce cfg c h.hash total crc (some flag) p)) s

/-- `CDS.TRIG`, R177. -/
def execCdsTrig (c : PipeId) (h : Header) (name : BitVec 64) (s : State) : Host.Outcome State Fault Refusal :=
  streamFrame c (cds8Frame h name) (fun _ p => .ok (trigger c name p)) s

/-- `CDS.DATA`, R178 to R183. -/
def execCdsData (c : PipeId) (h : Header) (data : BitVec 64) (s : State) : Host.Outcome State Fault Refusal :=
  streamFrame c (cds8Frame h data) (fun _ p => dataFrame c h.hash data p) s

/-- `CDS.SHORT`, R175. -/
def execCdsShort (c : PipeId) (h : Header) (b : Body) (s : State) : Host.Outcome State Fault Refusal :=
  streamFrame c (mkFrame cfgDataCmd h b) (fun _ p => .ok (ignoreFrame c .shortLen p)) s

/-- `VENDOR_22`, R153. -/
def execVendor22 (c : PipeId) (h : Header) (b : Body) (s : State) : Host.Outcome State Fault Refusal :=
  routeOnly c 20 (mkFrame 0x22#8 h b) s

/-- `UNKNOWN`, R154. -/
def execUnknown (c : PipeId) (cmd : BitVec 8) (h : Header) (b : Body) (s : State) : Host.Outcome State Fault Refusal :=
  rxGate c s fun s => .next (s.emit (.unknownCmd c (mkFrame cmd h b).cmd9))

end Sys2Proof.Machine
end

