-- ==== Sys2Proof/Machine/Control.lean ====
section
/-! DEFINITION. The control port (70_reset_and_hazards.md): `RESET`, `PIPE_START`, `PIPE_STOP`, `CDS_ACK`. -/

namespace Sys2Proof.Machine

/-- R96, R100: a control operation on pipeline `c`. -/
def controlPipe (c : PipeId) (f : Pipe → PipeEffect) (s : State) : Host.Outcome State Fault Refusal :=
  if s.hasPipe c then .next (s.begin.applyPipe c (f (s.pipe c.toNat))) else .next (s.begin.badRequest .ctl)

/-- R304: `PIPE_START` on its pipeline. -/
def startPipe (p : Pipe) : PipeEffect := ⟨{ p.clearSession with run := true, alive := true }, [], none⟩

/-- R305: `PIPE_STOP` on its pipeline. -/
def stopPipe (p : Pipe) : PipeEffect := ⟨{ p with run := false }, [], none⟩

/-- R185: `CDS_ACK` on its pipeline. -/
def ackPipe (c : PipeId) (p : Pipe) : PipeEffect :=
  if p.inflState == .inflPending then ⟨p, [], none⟩
  else if p.cdsState == .complete || p.cdsState == .crcError then ⟨p.clearSession, [.cdsAcked c], none⟩
  else ⟨p, [], none⟩

/-- R300: the state after `RESET`; the configuration and the waiting transactions stay (R301). -/
def State.resetBlock (s : State) : State :=
  { s with
    pipes := []
    locks := if s.cfg.hasLock then s.cfg.lockInit else s.locks
    orient := if s.cfg.hasCluster then [] else s.orient
    clOrient := if s.cfg.hasCluster then [] else s.clOrient }

/-- `RESET`, R300. -/
def execReset (s : State) : Host.Outcome State Fault Refusal := .next s.begin.resetBlock

/-- `PIPE_START`, R304. -/
def execPipeStart (c : PipeId) (s : State) : Host.Outcome State Fault Refusal := controlPipe c startPipe s

/-- `PIPE_STOP`, R305. -/
def execPipeStop (c : PipeId) (s : State) : Host.Outcome State Fault Refusal := controlPipe c stopPipe s

/-- `CDS_ACK`, R185. -/
def execCdsAck (c : PipeId) (s : State) : Host.Outcome State Fault Refusal := controlPipe c (ackPipe c) s

end Sys2Proof.Machine
end

