-- ==== Sys2Proof/Machine/Lock.lean ====
section
/-! DEFINITION. The resource-lock state machine (45_lock_fsm.md). Each operation on an entry answers the entry it leaves,
or `none` where it fails. -/

namespace Sys2Proof.Machine

/-- R232: `RESERVE`, the clauses in the rule's order. -/
def reserveEntry (o : ObjectId) (e : LockEntry) : Option LockEntry :=
  if !o.isSet then none
  else if e.owner = o ∧ e.lockState = .free then some { e with lockState := .reserved }
  else if e.owner.isSet ∧ e.owner ≠ o then none
  else if e.lockState ≠ .free ∧ !e.owner.isSet then none
  else if e.lockState = .free then some ⟨.reserved, o⟩
  else some e

/-- R233: `LOCK`. -/
def lockEntry (o : ObjectId) (e : LockEntry) : Option LockEntry :=
  if o.isSet ∧ e.owner = o ∧ (e.lockState = .reserved ∨ e.lockState = .hardLocked) then
    some { e with lockState := .hardLocked }
  else none

/-- R234: `RELEASE`. -/
def releaseEntry (o : ObjectId) (e : LockEntry) : Option LockEntry :=
  if !o.isSet ∨ e.owner = o then some .freeUnset else none

/-- R235: `ISINUSE`. -/
def entryInUse (e : LockEntry) : Bool := e.lockState != .free || e.owner.isSet

/-- R93, R100: the item exists. -/
def State.hasItem (s : State) (item : BitVec 16) : Bool := s.cfg.hasLock && decide (item.toNat < s.cfg.nItems)

/-- R237, R238: a lock operation on a valid request. -/
def lockResult (op : LockOp) (item : BitVec 16) (o : ObjectId) (r : Option LockEntry) (s : State) : State :=
  let old := s.lock item.toNat
  match r with
  | none => (s.respondLock false).emit (.lockFail item op o)
  | some new => if new = old then s.respondLock true
      else ((s.setLock item.toNat new).respondLock true).emit (.lockChanged item old new)

/-- R230, R100: a lock operation; `f` is its rule on the entry. -/
def lockOperation (op : LockOp) (f : ObjectId → LockEntry → Option LockEntry) (item : BitVec 16) (o : ObjectId)
    (s : State) : State :=
  if s.hasItem item && !o.illFormed then lockResult op item o (f o (s.lock item.toNat)) s.begin
  else s.begin.badRequest .lk

/-- `ISINUSE`, R235. -/
def execIsinuse (item : BitVec 16) (s : State) : Host.Outcome State Fault Refusal :=
  if s.hasItem item then .next (s.begin.respondInUse (entryInUse (s.lock item.toNat))) else .next (s.begin.badRequest .lk)

/-- `RESERVE`, R232. -/
def execReserve (item : BitVec 16) (o : ObjectId) (s : State) : Host.Outcome State Fault Refusal :=
  .next (lockOperation .reserve reserveEntry item o s)

/-- `LOCK`, R233. -/
def execLock (item : BitVec 16) (o : ObjectId) (s : State) : Host.Outcome State Fault Refusal :=
  .next (lockOperation .lock lockEntry item o s)

/-- `RELEASE`, R234. -/
def execRelease (item : BitVec 16) (o : ObjectId) (s : State) : Host.Outcome State Fault Refusal :=
  .next (lockOperation .release releaseEntry item o s)

end Sys2Proof.Machine
end

