-- ==== Sys2Proof/Decode.lean ====
section
/-! DEFINITION. The wire codec (R81 to R85, R114, R116), the decoder of port words (R87 to R99) and, after it, the
encoder. Decoding is total: a word that matches no row of the table is rejected by name, and R100 says what the block
does with it. -/

namespace Sys2Proof

/-! ## The wire frame -/

/-- R114: `decode`. The length byte stands for the result `InvalidLength(lenb)`. -/
def decodeFrame (w : WireWord) : Except Byte Frame :=
  let idw : BitVec 32 := w.extractLsb' 72 32
  let lenb : Byte := w.extractLsb' 64 8
  if h : lenb.toNat ≤ 8 then
    .ok ⟨idw.extractLsb' 0 29, ⟨lenb.toNat, Nat.lt_succ_of_le h⟩, keepBytes lenb.toNat (w.extractLsb' 0 64)⟩
  else .error lenb

/-- R116: `encode`, with the transport flag bits of the configuration. -/
def encodeFrame (flags : BitVec 3) (f : Frame) : WireWord :=
  flags ++ f.id ++ BitVec.ofNat 8 f.len.val ++ keepBytes f.len.val f.payload

/-! ## The decoder -/

/-- Words that match no row of the table, by name (R90, R100). -/
inductive Reject where
  /-- An RX unit of kind 5 to 7 (R92). -/
  | rxuKind
  /-- A lock-port word with `L[37:36]` not 0 (R93). -/
  | lkReserved
  /-- A cluster-port word with `K[37:36]` not 0 (R95). -/
  | clReserved
  /-- A control-port word with `op` 0 or 5 to 15, or `T[19:16]` not 0 (R96). -/
  | ctlReserved
  deriving DecidableEq, Repr

/-- The port a rejected word stood at. -/
def Reject.port : Reject → Port
  | .rxuKind => .rxu
  | .lkReserved => .lk
  | .clReserved => .cl
  | .ctlReserved => .ctl

/-- R87 to R89: the instruction of a decoded frame on pipeline `c`. -/
def instrOfFrame (cfg : Config) (c : PipeId) (f : Frame) : Instr :=
  match (handlerOf f.cmd).toNat with
  | 1 => .system c f.header f.body
  | 2 => .discovery c f.header f.body
  | 3 => .bind c f.header f.body
  | 4 => .verify c f.header f.body
  | 5 => .speed c f.header f.body
  | 6 => .direction c f.header f.body
  | 7 => .function c f.header f.body
  | 8 => .readConfig c f.header f.body
  | 9 => .writeConfig c f.header f.body
  | 10 => .accSwitch c f.header f.body
  | 11 => .s88A c f.header f.body
  | 12 => .s88B c f.header f.body
  | 13 => .ping c f.header f.body
  | 14 => .bootloader c f.header f.body
  | 15 => .cfgStatus c f.header f.body
  | 16 => .vendor1E c f.header f.body
  | 17 => .vendor1F c f.header f.body
  | 18 => .vendor20 c f.header f.body
  | 19 =>
    match f.len.val with
    | 6 => .cdsAnn6 c f.header f.annTotal f.annCrc
    | 7 => .cdsAnn7 c f.header f.annTotal f.annCrc f.annFlag
    | 8 => if triggerMatch cfg f then .cdsTrig c f.header f.payload else .cdsData c f.header f.payload
    | _ => .cdsShort c f.header f.body
  | 20 => .vendor22 c f.header f.body
  | _ => .unknown c f.cmd f.header f.body

/-- R89: the instruction of the 13 bytes `w` on pipeline `c`. -/
def decodeWire (cfg : Config) (c : PipeId) (w : WireWord) : Instr :=
  match decodeFrame w with
  | .error lenb => .illen c lenb
  | .ok f => instrOfFrame cfg c f

/-- R92: an RX unit. -/
def decodeRxu (c : PipeId) (kind : BitVec 3) (n : BitVec 16) (w : WireWord) : Except Reject Instr :=
  match kind.toNat with
  | 0 => .ok (.rxFrame c w)
  | 1 => .ok (.rxBadsize c n)
  | 2 => .ok (.rxTimeout c)
  | 3 => .ok (.rxClosed c)
  | 4 => .ok (.rxError c)
  | _ => .error .rxuKind

/-- R93: a lock-port word, `hi` its bits above the object id. -/
def decodeLk (hi : BitVec 24) (id : Nat) : Except Reject Instr :=
  let item : BitVec 16 := hi.extractLsb' 4 16
  let owner : ObjectId := ⟨ObjType.ofCode (hi.extractLsb' 0 4), id⟩
  if hi.extractLsb' 20 2 = 0#2 then
    match (hi.extractLsb' 22 2).toNat with
    | 0 => .ok (.isinuse item)
    | 1 => .ok (.reserve item owner)
    | 2 => .ok (.lock item owner)
    | _ => .ok (.release item owner)
  else .error .lkReserved

/-- R95: a cluster-port word, `hi` its bits above the object id. -/
def decodeCl (hi : BitVec 24) (id : Nat) : Except Reject Instr :=
  let k : BitVec 16 := hi.extractLsb' 4 16
  let loco : ObjectId := ⟨ObjType.ofCode (hi.extractLsb' 0 4), id⟩
  if hi.extractLsb' 20 2 = 0#2 then
    if hi.getLsbD 23 then .ok (.setOrient k (hi.getLsbD 22) loco) else .ok (.canSetOrient k (hi.getLsbD 22) loco)
  else .error .clReserved

/-- R96: a control-port word. -/
def decodeCtl (t : BitVec 24) : Except Reject Instr :=
  let c : PipeId := t.extractLsb' 0 16
  if t.extractLsb' 16 4 = 0#4 then
    match (t.extractLsb' 20 4).toNat with
    | 1 => .ok .reset
    | 2 => .ok (.pipeStart c)
    | 3 => .ok (.pipeStop c)
    | 4 => .ok (.cdsAck c)
    | _ => .error .ctlReserved
  else .error .ctlReserved

/-- R93, R95: the 24 bits of an `lk` or `cl` word above the object id. -/
def highBits (cfg : Config) (w : Nat) : BitVec 24 := BitVec.ofNat 24 (w / 2 ^ cfg.objIdBits)

/-- R93, R95: the object id of an `lk` or `cl` word. -/
def lowBits (cfg : Config) (w : Nat) : Nat := w % 2 ^ cfg.objIdBits

/-- The decoder of port words. -/
def decode (cfg : Config) : PortWord → Except Reject Instr
  | .rxu c kind n w => decodeRxu c kind n w
  | .frame c w => .ok (decodeWire cfg c w)
  | .lk w => decodeLk (highBits cfg w) (lowBits cfg w)
  | .cl w => decodeCl (highBits cfg w) (lowBits cfg w)
  | .ctl t => decodeCtl t
  | .inf i => .ok (.inflDone (i.extractLsb' 33 16) (i.getLsbD 32) (i.extractLsb' 0 32))
  | .tx c id len payload => .ok (.encode c id len payload)

/-! ## The encoder -/

/-- R81, R82: the format F word of a frame, transport flags 0, on pipeline `c`. -/
def frameWord (c : PipeId) (f : Frame) : PortWord := .frame c (encodeFrame 0#3 f)

/-- R93: the lock-port word. -/
def lkWord (cfg : Config) (op : BitVec 2) (item : BitVec 16) (owner : ObjectId) : PortWord :=
  .lk ((op ++ 0#2 ++ item ++ owner.type.code : BitVec 24).toNat * 2 ^ cfg.objIdBits + owner.id)

/-- R95: the cluster-port word. -/
def clWord (cfg : Config) (op o : Bool) (k : BitVec 16) (loco : ObjectId) : PortWord :=
  .cl ((BitVec.ofBool op ++ BitVec.ofBool o ++ 0#2 ++ k ++ loco.type.code : BitVec 24).toNat * 2 ^ cfg.objIdBits + loco.id)

/-- R96: the control-port word. -/
def ctlWord (op : BitVec 4) (c : PipeId) : PortWord := .ctl (op ++ 0#4 ++ c)

/-- The word of an instruction, ignored bits 0. -/
def encode (cfg : Config) : Instr → PortWord
  | .illen c lenb => .frame c (0#32 ++ lenb ++ 0#64)
  | .system c h b => frameWord c (mkFrame 0x00#8 h b)
  | .discovery c h b => frameWord c (mkFrame 0x01#8 h b)
  | .bind c h b => frameWord c (mkFrame 0x02#8 h b)
  | .verify c h b => frameWord c (mkFrame 0x03#8 h b)
  | .speed c h b => frameWord c (mkFrame 0x04#8 h b)
  | .direction c h b => frameWord c (mkFrame 0x05#8 h b)
  | .function c h b => frameWord c (mkFrame 0x06#8 h b)
  | .readConfig c h b => frameWord c (mkFrame 0x07#8 h b)
  | .writeConfig c h b => frameWord c (mkFrame 0x08#8 h b)
  | .accSwitch c h b => frameWord c (mkFrame 0x0B#8 h b)
  | .s88A c h b => frameWord c (mkFrame 0x10#8 h b)
  | .s88B c h b => frameWord c (mkFrame 0x11#8 h b)
  | .ping c h b => frameWord c (mkFrame 0x18#8 h b)
  | .bootloader c h b => frameWord c (mkFrame 0x1B#8 h b)
  | .cfgStatus c h b => frameWord c (mkFrame 0x1D#8 h b)
  | .vendor1E c h b => frameWord c (mkFrame 0x1E#8 h b)
  | .vendor1F c h b => frameWord c (mkFrame 0x1F#8 h b)
  | .vendor20 c h b => frameWord c (mkFrame 0x20#8 h b)
  | .cdsAnn6 c h total crc => frameWord c (ann6Frame h total crc)
  | .cdsAnn7 c h total crc flag => frameWord c (ann7Frame h total crc flag)
  | .cdsTrig c h name => frameWord c (cds8Frame h name)
  | .cdsData c h data => frameWord c (cds8Frame h data)
  | .cdsShort c h b => frameWord c (mkFrame cfgDataCmd h b)
  | .vendor22 c h b => frameWord c (mkFrame 0x22#8 h b)
  | .unknown c cmd h b => frameWord c (mkFrame cmd h b)
  | .rxFrame c w => .rxu c 0#3 0#16 w
  | .rxBadsize c n => .rxu c 1#3 n 0#104
  | .rxTimeout c => .rxu c 2#3 0#16 0#104
  | .rxClosed c => .rxu c 3#3 0#16 0#104
  | .rxError c => .rxu c 4#3 0#16 0#104
  | .isinuse item => lkWord cfg 0#2 item .unset
  | .reserve item o => lkWord cfg 1#2 item o
  | .lock item o => lkWord cfg 2#2 item o
  | .release item o => lkWord cfg 3#2 item o
  | .canSetOrient k o loco => clWord cfg false o k loco
  | .setOrient k o loco => clWord cfg true o k loco
  | .reset => ctlWord 1#4 0#16
  | .pipeStart c => ctlWord 2#4 c
  | .pipeStop c => ctlWord 3#4 c
  | .cdsAck c => ctlWord 4#4 c
  | .inflDone c ok outLen => .inf (c ++ BitVec.ofBool ok ++ outLen)
  | .encode c id len payload => .tx c id len payload

/-! ## Pseudo-operations (R103) -/

/-- R103: `FORCE_RELEASE <item>`. -/
def forceRelease (item : BitVec 16) : Instr := .release item .unset
/-- R103: `DELETE <item>`. -/
def deleteItem (item : BitVec 16) : Instr := .release item .unset
/-- R103: `ANNOUNCE` is `CDS.ANN6`. -/
def announceFrame (c : PipeId) (h : Header) (total : BitVec 32) (crc : BitVec 16) : Instr := .cdsAnn6 c h total crc
/-- R103: `MNEMONIC.REQ` is the mnemonic without `.R`: the header with the response bit 0. -/
def Header.request (h : Header) : Header := { h with resp := false }

/-! ## Words of the opcode table -/

/-- The port word of the table's number `w` for a row of `nbits` bits in whole bytes, other fields 0, pipeline 0.
The size names the format: RXU 3 bits (8), CTL 24, LK 40, INF 49 (56), F 104, TX 113 (120). CL has LK's size and its words
are LK's words too: 40 reads LK, and 41 is the model's own number for CL (log 14). -/
def tableWord (nbits w : Nat) : Option PortWord :=
  match nbits with
  | 8 => some (.rxu 0#16 (BitVec.ofNat 3 w) 0#16 0#104)
  | 24 => some (.ctl (BitVec.ofNat 24 w))
  | 40 => some (.lk (w % 2 ^ 40))
  | 41 => some (.cl (w % 2 ^ 40))
  | 56 => some (.inf (BitVec.ofNat 49 w))
  | 104 => some (.frame 0#16 (BitVec.ofNat 104 w))
  | 120 =>
    let t : BitVec 113 := BitVec.ofNat 113 w
    some (.tx (t.extractLsb' 97 16) (t.extractLsb' 68 29) (t.extractLsb' 64 4) (t.extractLsb' 0 64))
  | _ => none

/-- The instruction the decoder reads from a word of the opcode table, under the default configuration (log 14). -/
def decodeTableWord (nbits w : Nat) : Option Instr :=
  match tableWord nbits w with
  | none => none
  | some p =>
    match decode .default p with
    | .ok i => some i
    | .error _ => none

end Sys2Proof
end

