-- ==== Sys2Proof/Machine/Rx.lean ====
section
/-! DEFINITION. The receive front end (40_frame_codec.md sections 1 to 3): the five kinds of RX units. -/

namespace Sys2Proof.Machine

/-- R115: what an enabled unit of kind `FRAME` does: `decode`, then `dispatch`. -/
def receiveFrame (c : PipeId) (w : WireWord) (s : State) : Host.Outcome State Fault Refusal :=
  match decodeFrame w with
  | .error lenb => .next (s.emit (.invalidLength c lenb))
  | .ok f => dispatch c f s

/-- R113: the connection is dead. -/
def connectionDead (c : PipeId) (kind : DeadKind) (s : State) : State :=
  (s.setPipe c.toNat { s.pipe c.toNat with alive := false }).emit (.connDead c kind)

/-- `RX.FRAME`, R115. -/
def execRxFrame (c : PipeId) (w : WireWord) (s : State) : Host.Outcome State Fault Refusal :=
  rxGate c s (receiveFrame c w)

/-- `RX.BADSIZE`, R112. -/
def execRxBadsize (c : PipeId) (n : BitVec 16) (s : State) : Host.Outcome State Fault Refusal :=
  rxGate c s fun s => .next (s.emit (.badSize c n))

/-- `RX.TIMEOUT`, R112. -/
def execRxTimeout (c : PipeId) (s : State) : Host.Outcome State Fault Refusal :=
  rxGate c s fun s => .next s

/-- `RX.CLOSED`, R113. -/
def execRxClosed (c : PipeId) (s : State) : Host.Outcome State Fault Refusal :=
  rxGate c s fun s => .next (connectionDead c .closed s)

/-- `RX.ERROR`, R113. -/
def execRxError (c : PipeId) (s : State) : Host.Outcome State Fault Refusal :=
  rxGate c s fun s => .next (connectionDead c .error s)

/-! ## The adapter's contract -/

/-- R91, R110: `n` whole frames from the front of a datagram, in order of rising offset. -/
def cutFrames (c : PipeId) : Nat → List Byte → List PortWord
  | 0, _ => []
  | n + 1, bytes =>
    .rxu c 0#3 0#16 ((bytes.take 13).foldl (fun w b => (w <<< 8) ||| b.setWidth 104) 0#104) ::
      cutFrames c n (bytes.drop 13)

/-- R91: the RX units an adapter makes of a datagram: the whole frames, then one `BADSIZE` unit for the rest. -/
def cutDatagram (c : PipeId) (bytes : List Byte) : List PortWord :=
  cutFrames c (bytes.length / 13) bytes ++
    (if bytes.length % 13 = 0 then [] else [.rxu c 1#3 (BitVec.ofNat 16 (bytes.length % 13)) 0#104])

end Sys2Proof.Machine
end

