-- ==== Sys2Proof/Machine/Tx.lean ====
section
/-! DEFINITION. The TX port: `ENCODE` (R99, R116). -/

namespace Sys2Proof.Machine

/-- R116: the 13 bytes of a request whose `len` is at most 8. -/
def txUnit (cfg : Config) (c : PipeId) (id : BitVec 29) (len : Fin 9) (payload : BitVec 64) : TxUnit :=
  ⟨c, encodeFrame cfg.txIdFlags ⟨id, len, payload⟩⟩

/-- `ENCODE`, R116: it reads no pipeline, so it does not depend on `run` or `alive`. -/
def execEncode (c : PipeId) (id : BitVec 29) (len : BitVec 4) (payload : BitVec 64) (s : State) :
    Host.Outcome State Fault Refusal :=
  if h : len.toNat ≤ 8 then
    if s.hasPipe c then
      .next { s with out := { Outputs.empty with
        tx := some (txUnit s.cfg c id ⟨len.toNat, Nat.lt_succ_of_le h⟩ payload) } }
    else .next (s.begin.badRequest .tx)
  else .next (s.begin.badRequest .tx)

end Sys2Proof.Machine
end

