-- ==== Sys2Proof/Machine/Dispatch.lean ====
section
/-! DEFINITION. One arm for each constructor of Instr. -/

namespace Sys2Proof.Machine

def exec (i : Instr) (s : State) : Host.Outcome State Fault Refusal :=
  match i with
  | .illen c lenb => Sys2Proof.Machine.execIllen c lenb s
  | .system c h b => Sys2Proof.Machine.execSystem c h b s
  | .discovery c h b => Sys2Proof.Machine.execDiscovery c h b s
  | .bind c h b => Sys2Proof.Machine.execBind c h b s
  | .verify c h b => Sys2Proof.Machine.execVerify c h b s
  | .speed c h b => Sys2Proof.Machine.execSpeed c h b s
  | .direction c h b => Sys2Proof.Machine.execDirection c h b s
  | .function c h b => Sys2Proof.Machine.execFunction c h b s
  | .readConfig c h b => Sys2Proof.Machine.execReadConfig c h b s
  | .writeConfig c h b => Sys2Proof.Machine.execWriteConfig c h b s
  | .accSwitch c h b => Sys2Proof.Machine.execAccSwitch c h b s
  | .s88A c h b => Sys2Proof.Machine.execS88A c h b s
  | .s88B c h b => Sys2Proof.Machine.execS88B c h b s
  | .ping c h b => Sys2Proof.Machine.execPing c h b s
  | .bootloader c h b => Sys2Proof.Machine.execBootloader c h b s
  | .cfgStatus c h b => Sys2Proof.Machine.execCfgStatus c h b s
  | .vendor1E c h b => Sys2Proof.Machine.execVendor1E c h b s
  | .vendor1F c h b => Sys2Proof.Machine.execVendor1F c h b s
  | .vendor20 c h b => Sys2Proof.Machine.execVendor20 c h b s
  | .cdsAnn6 c h total crc => Sys2Proof.Machine.execCdsAnn6 c h total crc s
  | .cdsAnn7 c h total crc flag => Sys2Proof.Machine.execCdsAnn7 c h total crc flag s
  | .cdsTrig c h name => Sys2Proof.Machine.execCdsTrig c h name s
  | .cdsData c h data => Sys2Proof.Machine.execCdsData c h data s
  | .cdsShort c h b => Sys2Proof.Machine.execCdsShort c h b s
  | .vendor22 c h b => Sys2Proof.Machine.execVendor22 c h b s
  | .unknown c cmd h b => Sys2Proof.Machine.execUnknown c cmd h b s
  | .rxFrame c w => Sys2Proof.Machine.execRxFrame c w s
  | .rxBadsize c n => Sys2Proof.Machine.execRxBadsize c n s
  | .rxTimeout c => Sys2Proof.Machine.execRxTimeout c s
  | .rxClosed c => Sys2Proof.Machine.execRxClosed c s
  | .rxError c => Sys2Proof.Machine.execRxError c s
  | .isinuse item => Sys2Proof.Machine.execIsinuse item s
  | .reserve item owner => Sys2Proof.Machine.execReserve item owner s
  | .lock item owner => Sys2Proof.Machine.execLock item owner s
  | .release item owner => Sys2Proof.Machine.execRelease item owner s
  | .canSetOrient k o loco => Sys2Proof.Machine.execCanSetOrient k o loco s
  | .setOrient k o loco => Sys2Proof.Machine.execSetOrient k o loco s
  | .reset => Sys2Proof.Machine.execReset s
  | .pipeStart c => Sys2Proof.Machine.execPipeStart c s
  | .pipeStop c => Sys2Proof.Machine.execPipeStop c s
  | .cdsAck c => Sys2Proof.Machine.execCdsAck c s
  | .inflDone c ok outLen => Sys2Proof.Machine.execInflDone c ok outLen s
  | .encode c id len payload => Sys2Proof.Machine.execEncode c id len payload s

end Sys2Proof.Machine
end

