-- ==== Sys2Proof/Machine/Fetch.lean ====
section
/-! DEFINITION. Which presented transaction the block takes next (R71, R111), what it does with a word that is no
instruction (R100), and how a word is presented. -/

namespace Sys2Proof.Machine

/-- R71: the pipeline whose receive order a word belongs to. -/
def rxPipeOf : PortWord → Option PipeId
  | .rxu c _ _ _ => some c
  | .frame c _ => some c
  | .lk _ => none
  | .cl _ => none
  | .ctl _ => none
  | .inf _ => none
  | .tx .. => none

/-- R111: the word is an RX unit of a pipeline that takes none now; it stays with its adapter. The enable test comes
before the kind test (R274; log 7). -/
def State.held (s : State) (w : PortWord) : Bool :=
  match rxPipeOf w with
  | some c => s.hasPipe c && !(s.pipe c.toNat).enabled
  | none => false

/-- The first word of a list that is not held, and the list without it (log 1). -/
def takeFirst (s : State) : List PortWord → Option (PortWord × List PortWord)
  | [] => none
  | w :: ws =>
    if s.held w then
      match takeFirst s ws with
      | none => none
      | some (x, rest) => some (x, w :: rest)
    else some (w, ws)

/-- The transaction the block takes now, and the state in which it is no longer waiting. -/
def State.takeWord (s : State) : Option (PortWord × State) :=
  match takeFirst s s.pending with
  | none => none
  | some (w, rest) => some (w, { s with pending := rest })

/-- R100: a word that is no instruction is taken and dropped. -/
def State.rejectWord (s : State) (r : Reject) : State := s.begin.badRequest r.port

/-- Make a pipeline take RX units: `run`, `alive`, no pending inflation (R111). -/
def Pipe.opened (p : Pipe) : Pipe :=
  { p with run := true, alive := true, inflState := if p.inflState = .inflPending then .inflNone else p.inflState }

/-- Open the pipeline a word is presented at, if it is a receive word (log 13). -/
def State.openFor (s : State) (w : PortWord) : State :=
  match rxPipeOf w with
  | some c => s.setPipe c.toNat (s.pipe c.toNat).opened
  | none => s

/-- Present a word before every other (log 13). -/
def State.present (s : State) (w : PortWord) : State := { s.openFor w with pending := w :: s.pending }

end Sys2Proof.Machine
end

