-- ==== Sys2Proof/Machine/Step.lean ====
section
/-! DEFINITION. One step of the block: take the next transaction that is not held, decode it, carry it out (R15, R70). -/

namespace Sys2Proof.Machine

/-- One step. With nothing to take the block stays as it is and emits nothing (R24; log 2). -/
def step (s : State) : Host.Outcome State Fault Refusal :=
  match s.takeWord with
  | none => .next s.begin
  | some (w, t) =>
    match decode s.cfg w with
    | .ok i => exec i t
    | .error r => .next (t.rejectWord r)

/-- `s` with the instruction of the opcode table's number `w` presented before every other transaction (log 13, 14). -/
def State.withFetchWord (s : State) (nbits w : Nat) : State :=
  match tableWord nbits w with
  | some p => s.present p
  | none => s

end Sys2Proof.Machine
end

