-- ==== Sys2Proof/Machine/Views.lean ====
section
/-! DEFINITION. What the agents around the block read (R63, R73, R78, R222). These reads are no transactions: they change
nothing. -/

namespace Sys2Proof.Machine

/-- R67, R73, R220: the consumer's read of the buffer: any range of valid bytes while the stream is `Complete`, refused in
any other state. The padding `buf[total_size .. rx_count - 1]` is valid too (R61, R184; DEDUCED, log 22). -/
def consumerRead (p : Pipe) (addr n : Nat) : Option (List Byte) :=
  if p.cdsState = .complete then memRead p addr n else none

/-- R67, R218: the inflater's read of the buffer: any range of valid bytes while its request is pending (DEDUCED, log 22). -/
def inflaterRead (p : Pipe) (addr n : Nat) : Option (List Byte) :=
  if p.inflState = .inflPending then memRead p addr n else none

/-- R78, R218: the span the request names, bytes `4 .. total_size - 1`. -/
def inflaterSpan (p : Pipe) : Option (List Byte) := inflaterRead p 4 (p.totalSize.toNat - 4)

/-- R222: the length of the delivered data of a complete stream: `total_size` for a stored stream, `infl_size` once the
inflater has answered for a compressed one; `none` where nothing is delivered. -/
def deliveredLength (p : Pipe) : Option (BitVec 32) :=
  if p.cdsState = .complete then
    if p.compressed then (if p.inflState = .inflOk then some p.inflSize else none) else some p.totalSize
  else none

/-- R222: the delivered bytes of a stored stream; those of a compressed one are the inflater's output. -/
def deliveredStored (p : Pipe) : Option (List Byte) :=
  if p.cdsState = .complete ∧ p.compressed = false then memRead p 0 p.totalSize.toNat else none

end Sys2Proof.Machine
end

