-- ==== Sys2Proof/Safety.lean ====
section
/-! DEFINITION. What holds in every state a run reaches, in the terms the statements use: the invariants of one pipeline
(R29, R31, R36, R61, R223), of the block, of the lock table (R244) and of the clusters (R256), runs of the block, and the vocabulary of the statements:
what a rule says, written from the rule and not from the meaning that implements it. -/

namespace Sys2Proof.Machine

/-- The invariants of an RX pipeline. -/
structure PipeInv (cfg : Config) (p : Pipe) : Prop where
  /-- R61: exactly the bytes below `rx_count` hold a value. -/
  bufKeys : p.buf.map Prod.fst = List.range p.rxCount.toNat
  /-- R31: `rx_count` is a multiple of 8. -/
  countMul : p.rxCount.toNat % 8 = 0
  /-- R27: `total_size` is at most `MAX_TOTAL`. -/
  sizeBound : p.totalSize.toNat ≤ cfg.maxTotal
  /-- R170, R185: in `Idle` no session register is set but the name. -/
  idle : p.cdsState = .idle → p.rxCount = 0 ∧ p.totalSize = 0 ∧ p.crcAnn = 0 ∧ p.crcCalc = 0 ∧ p.flag = 0 ∧
    p.flagValid = false ∧ p.sessHash = 0
  /-- R31: in `Announced` nothing is received. -/
  announced : p.cdsState = .announced → p.rxCount = 0 ∧ p.crcCalc = 0
  /-- R31: in `Accumulating`, `8 <= rx_count < total_size`. -/
  accumulating : p.cdsState = .accumulating → 8 ≤ p.rxCount.toNat ∧ p.rxCount.toNat < p.totalSize.toNat ∧ p.crcCalc = 0
  /-- R31, R29, R206: in `Complete`, the count, and the CRC of the stream bytes is the announced one. -/
  complete : p.cdsState = .complete → p.rxCount.toNat = 8 * max 1 ((p.totalSize.toNat + 7) / 8) ∧
    p.crcCalc = p.crcAnn ∧ ∃ d, memRead p 0 p.totalSize.toNat = some d ∧ crc16 d = p.crcAnn
  /-- R31, R29: in `CrcError` the buffer is discarded and the two CRC values differ. -/
  crcError : p.cdsState = .crcError → p.rxCount = 0 ∧ p.crcCalc ≠ p.crcAnn
  /-- R36: an inflation belongs to a complete compressed stream. -/
  inflating : p.inflState ≠ .inflNone → p.cdsState = .complete ∧ p.compressed = true
  /-- R223: a request was made, or succeeded, only with a whole size prefix. -/
  sizePrefix : p.inflState = .inflPending ∨ p.inflState = .inflOk → 4 ≤ p.totalSize.toNat ∧ p.inflSize.toNat < 2 ^ 24 ∧
    ∃ b0 b1 b2 b3, memRead p 0 4 = some [b0, b1, b2, b3] ∧ p.inflSize = be32 b0 b1 b2 b3
  /-- R223: a compressed stream is complete and begins with a zero byte. -/
  compressed : p.compressed = true → p.cdsState = .complete ∧ 1 ≤ p.totalSize.toNat ∧ p.byteAt 0 = some 0#8 ∧
    p.inflState ≠ .inflNone
  /-- R35: `infl_size` is set only for a compressed stream. -/
  stored : p.compressed = false → p.inflSize = 0
  /-- R30: no flag without its valid bit. -/
  flagClear : p.flagValid = false → p.flag = 0
  /-- R33: no name without its valid bit. -/
  nameClear : p.nameValid = false → p.name = 0

/-- The invariants of the block. -/
structure Inv (s : State) : Prop where
  cfgWf : s.cfg.wf = true
  pipesWf : Table.wf .reset s.pipes = true
  pipes : ∀ c, PipeInv s.cfg (s.pipe c)
  /-- R20: there are `N_CONN` pipelines. -/
  onlyPipes : ∀ c, s.cfg.nConn ≤ c → s.pipe c = .reset
  locksWf : Table.wf .freeUnset s.locks = true
  /-- R41: there are `N_ITEMS` entries, none with `HAS_LOCK = 0`. -/
  onlyItems : ∀ i, s.cfg.nItems ≤ i ∨ s.cfg.hasLock = false → s.lock i = .freeUnset
  /-- R40: every owner is well-formed. -/
  owners : ∀ i, (s.lock i).owner.illFormed = false
  orientWf : Table.wf false s.orient = true
  clOrientWf : Table.wf false s.clOrient = true
  /-- R45, R46: the orientation bits of existing items and clusters only. -/
  onlyOrient : ∀ i, s.cfg.nItems ≤ i ∨ s.cfg.hasCluster = false → s.orientOf i = false
  onlyClOrient : ∀ k, s.cfg.nClusters ≤ k ∨ s.cfg.hasCluster = false → s.clOrientOf k = false
  /-- R256: every member has its cluster's orientation. -/
  clusters : ∀ k, ∀ m ∈ clusterMembersOf s.cfg k, s.orientOf m.1 = s.clOrientOf k

/-- R231, R244: a consistent lock entry: `lock_state != Free` iff the owner is set. -/
def consistentEntry (e : LockEntry) : Prop := e.lockState ≠ .free ↔ e.owner.isSet = true

/-- R244: every entry is consistent. -/
def LocksConsistent (s : State) : Prop := ∀ i, consistentEntry (s.lock i)

/-- R244: every entry of `LOCK_INIT` is consistent. -/
def lockInitConsistent (cfg : Config) : Prop := ∀ e ∈ cfg.lockInit, consistentEntry e.2

/-- R240: no entry is `SoftLocked`. -/
def NoSoftLock (s : State) : Prop := ∀ i, (s.lock i).lockState ≠ .softLocked

/-- A run: `t` is reached from `s` by steps, every one of which answers a next state. -/
inductive Reaches (s : State) : State → Prop where
  | refl : Reaches s s
  | step {t u : State} : Reaches s t → Machine.step t = .next u → Reaches s u

/-- A block with configuration `cfg` after reset, to which the transactions `ws` will be presented in this order. -/
def poweredWith (cfg : Config) (ws : List PortWord) : State := { State.powerOn cfg with pending := ws }

/-! ## Words and frames -/

/-- R11: byte `k` of a wire frame, `b[k] = W[103 - 8k : 96 - 8k]`. -/
def wireByte (w : WireWord) (k : Nat) : Byte := w.extractLsb' (96 - 8 * k) 8

/-- R85: payload byte `i` of the frame a wire word of length byte `len` decodes to. -/
def keptByte (w : WireWord) (i : Nat) : Byte := if i < (wireByte w 4).toNat then wireByte w (5 + i) else 0#8

/-- R83: the header fields of a wire word. -/
def wireHeader (w : WireWord) : Header := ⟨w.extractLsb' 98 3, w.getLsbD 97, w.getLsbD 88, w.extractLsb' 72 16⟩

/-- R100: a malformed port word, each field written as the place the format gives it. `n` is `OBJ_ID_BITS`. -/
def Malformed (cfg : Config) : PortWord → Prop
  | .rxu c kind _ _ => 5 ≤ kind.toNat ∨ cfg.nConn ≤ c.toNat
  | .frame c _ => cfg.nConn ≤ c.toNat
  | .lk w =>
    let n := cfg.objIdBits
    cfg.hasLock = false ∨ w / 2 ^ (n + 20) % 4 ≠ 0 ∨ cfg.nItems ≤ w / 2 ^ (n + 4) % 2 ^ 16 ∨
      (w / 2 ^ (n + 22) % 4 ≠ 0 ∧ ¬(w / 2 ^ n % 16 = 0 ↔ w % 2 ^ n = 0))
  | .cl w =>
    let n := cfg.objIdBits
    cfg.hasCluster = false ∨ w / 2 ^ (n + 20) % 4 ≠ 0 ∨ cfg.nClusters ≤ w / 2 ^ (n + 4) % 2 ^ 16 ∨
      ¬(w / 2 ^ n % 16 = 0 ↔ w % 2 ^ n = 0)
  | .ctl t =>
    let op := t.extractLsb' 20 4
    t.extractLsb' 16 4 ≠ 0#4 ∨ op = 0#4 ∨ 5 ≤ op.toNat ∨ (op ≠ 1#4 ∧ cfg.nConn ≤ (t.extractLsb' 0 16).toNat)
  | .inf i => cfg.nConn ≤ (i.extractLsb' 33 16).toNat
  | .tx c _ len _ => 8 < len.toNat ∨ cfg.nConn ≤ c.toNat

/-- R219: an answer of the inflater that no pending inflation waits for. -/
def StrayAnswer (s : State) : PortWord → Prop
  | .inf i => (s.pipe (i.extractLsb' 33 16).toNat).inflState ≠ .inflPending
  | _ => False

/-- R100, R270: the outputs of a step that refuses a word of port `p`. -/
def refusal (p : Port) : Outputs :=
  { Outputs.empty with
    events := [.badRequest p]
    lockResponse := if p = .lk then some ⟨false, false⟩ else none
    clusterOk := if p = .cl then some false else none }

/-! ## Pipelines -/

/-- R111: pipeline `c` exists and takes RX units. -/
def Ready (s : State) (c : PipeId) : Prop :=
  c.toNat < s.cfg.nConn ∧ (s.pipe c.toNat).run = true ∧ (s.pipe c.toNat).alive = true ∧
    (s.pipe c.toNat).inflState ≠ .inflPending

/-- R111: the word is an RX unit of an existing pipeline that takes none now. -/
def NotEnabled (s : State) (w : PortWord) : Prop := ∃ c, rxPipeOf w = some c ∧ c.toNat < s.cfg.nConn ∧ ¬Ready s c

/-- Nothing but pipeline `c` and the outputs differs. -/
structure OnlyPipe (c : PipeId) (s t : State) : Prop where
  cfg : t.cfg = s.cfg
  pending : t.pending = s.pending
  locks : t.locks = s.locks
  orient : t.orient = s.orient
  clOrient : t.clOrient = s.clOrient
  others : ∀ c', c' ≠ c.toNat → t.pipe c' = s.pipe c'

/-- Outputs that are events only. -/
def eventsOnly (es : List Event) : Outputs := { Outputs.empty with events := es }

/-- R98, R130: the outputs of a routed frame of a handler outside the block, other than `SYSTEM`. -/
def routedOut (c : PipeId) (handler : BitVec 5) (f : Frame) : Outputs :=
  { Outputs.empty with
    events := [.dispatch c handler f.resp]
    handler := some ⟨c, handler, f.resp, f, payloadByte f.payload 4, false⟩ }

/-- R132, R135 to R143: instruction, handler number and 8-bit command of the drive, discovery and configuration commands. -/
def driveRoutes (c : PipeId) (h : Header) (b : Body) : List (Instr × BitVec 5 × BitVec 8) :=
  [(.discovery c h b, 2, 0x01), (.bind c h b, 3, 0x02), (.verify c h b, 4, 0x03), (.speed c h b, 5, 0x04),
   (.direction c h b, 6, 0x05), (.function c h b, 7, 0x06), (.readConfig c h b, 8, 0x07), (.writeConfig c h b, 9, 0x08),
   (.accSwitch c h b, 10, 0x0B)]

/-- R132, R144 to R151, R153: the same of the feedback, service and vendor commands. -/
def otherRoutes (c : PipeId) (h : Header) (b : Body) : List (Instr × BitVec 5 × BitVec 8) :=
  [(.s88A c h b, 11, 0x10), (.s88B c h b, 12, 0x11), (.ping c h b, 13, 0x18), (.bootloader c h b, 14, 0x1B),
   (.cfgStatus c h b, 15, 0x1D), (.vendor1E c h b, 16, 0x1E), (.vendor1F c h b, 17, 0x1F), (.vendor20 c h b, 18, 0x20),
   (.vendor22 c h b, 20, 0x22)]

/-- R98, R130, R152: the outputs of a stream frame whose own events are `es`. -/
def streamOut (c : PipeId) (f : Frame) (es : List Event) : Outputs :=
  { Outputs.empty with
    events := .dispatch c 19 f.resp :: es
    handler := some ⟨c, 19, f.resp, f, payloadByte f.payload 4, false⟩ }

/-- R178: a session is open for frames of this hash. -/
def OpenFor (p : Pipe) (hash : BitVec 16) : Prop :=
  (p.cdsState = .announced ∨ p.cdsState = .accumulating) ∧ hash = p.sessHash

/-- R62: what an address of the buffer holds after the eight bytes `data` are stored at `rx_count`. -/
def afterData (p : Pipe) (data : BitVec 64) (a : Nat) : Option Byte :=
  if p.rxCount.toNat ≤ a ∧ a < p.rxCount.toNat + 8 then some (payloadByte data (a - p.rxCount.toNat))
  else Memory.read p.buf a

/-- R205: `d` are the first `total_size` bytes of the buffer once `data` is stored at `rx_count`, and `data` is the frame
that completes the stream (R62, R183). -/
structure LastFrame (p : Pipe) (data : BitVec 64) (d : List Byte) : Prop where
  start : p.rxCount.toNat ≤ p.totalSize.toNat
  reached : p.totalSize.toNat ≤ p.rxCount.toNat + 8
  length : d.length = p.totalSize.toNat
  bytes : ∀ k < p.totalSize.toNat, afterData p data k = d[k]?

/-! ## The lock table and the clusters -/

/-- R239: the transition table. The columns are the current owner `a`, another set owner `b`, the unset owner `N`. -/
def lockTable (op : LockOp) (e : LockEntry) (o : ObjectId) : Option LockEntry :=
  if o.isSet = false then
    match op with
    | .release => some .freeUnset
    | .reserve => none
    | .lock => none
  else if o = e.owner then
    match op, e.lockState with
    | .reserve, .free => some ⟨.reserved, o⟩
    | .reserve, _ => some e
    | .lock, .reserved => some ⟨.hardLocked, o⟩
    | .lock, .hardLocked => some e
    | .lock, _ => none
    | .release, _ => some .freeUnset
  else
    match op with
    | .reserve => if e.lockState = .free ∧ e.owner.isSet = false then some ⟨.reserved, o⟩ else none
    | .lock => none
    | .release => none

/-- The lock-port instruction of an operation. -/
def lockInstr : LockOp → BitVec 16 → ObjectId → Instr
  | .reserve => .reserve
  | .lock => .lock
  | .release => .release

/-- R252: item `i` is held by another than `loco`. -/
def HeldByOther (s : State) (i : Nat) (loco : ObjectId) : Prop :=
  (s.lock i).lockState ≠ .free ∧ ¬((s.lock i).lockState = .reserved ∧ (s.lock i).owner = loco)

/-- R253: no member of cluster `k` blocks the orientation `o` for `loco`. -/
def Unblocked (s : State) (k : Nat) (o : Bool) (loco : ObjectId) : Prop :=
  ∀ m ∈ clusterMembersOf s.cfg k, ¬(HeldByOther s m.1 loco ∧ (s.orientOf m.1 ^^ m.2) ≠ (o ^^ m.2))

/-- R95, R100: a cluster request the block takes. -/
def ClusterRequest (s : State) (k : BitVec 16) (loco : ObjectId) : Prop :=
  s.cfg.hasCluster = true ∧ k.toNat < s.cfg.nClusters ∧ loco.illFormed = false

/-- Carry out instructions one after the other. -/
def execAll : List Instr → State → Host.Outcome State Fault Refusal
  | [], s => .next s
  | i :: is, s =>
    match exec i s with
    | .next t => execAll is t
    | .fault r => .fault r
    | .refused r => .refused r

end Sys2Proof.Machine

namespace Sys2Proof

/-! ## Classes of instructions -/

/-- R80: the pipeline whose RX port an instruction stands at. -/
def Instr.rxPipe : Instr → Option PipeId
  | .illen c _ => some c
  | .system c _ _ => some c
  | .discovery c _ _ => some c
  | .bind c _ _ => some c
  | .verify c _ _ => some c
  | .speed c _ _ => some c
  | .direction c _ _ => some c
  | .function c _ _ => some c
  | .readConfig c _ _ => some c
  | .writeConfig c _ _ => some c
  | .accSwitch c _ _ => some c
  | .s88A c _ _ => some c
  | .s88B c _ _ => some c
  | .ping c _ _ => some c
  | .bootloader c _ _ => some c
  | .cfgStatus c _ _ => some c
  | .vendor1E c _ _ => some c
  | .vendor1F c _ _ => some c
  | .vendor20 c _ _ => some c
  | .cdsAnn6 c _ _ _ => some c
  | .cdsAnn7 c _ _ _ _ => some c
  | .cdsTrig c _ _ => some c
  | .cdsData c _ _ => some c
  | .cdsShort c _ _ => some c
  | .vendor22 c _ _ => some c
  | .unknown c _ _ _ => some c
  | .rxFrame c _ => some c
  | .rxBadsize c _ => some c
  | .rxTimeout c => some c
  | .rxClosed c => some c
  | .rxError c => some c
  | .isinuse _ => none
  | .reserve _ _ => none
  | .lock _ _ => none
  | .release _ _ => none
  | .canSetOrient _ _ _ => none
  | .setOrient _ _ _ => none
  | .reset => none
  | .pipeStart _ => none
  | .pipeStop _ => none
  | .cdsAck _ => none
  | .inflDone _ _ _ => none
  | .encode _ _ _ _ => none

/-- R72: the one pipeline whose state an instruction reads or writes. -/
def Instr.pipeOf : Instr → Option PipeId
  | .pipeStart c => some c
  | .pipeStop c => some c
  | .cdsAck c => some c
  | .inflDone c _ _ => some c
  | i => i.rxPipe

/-- R72: the one item whose lock entry an instruction of the lock port reads or writes. -/
def Instr.itemOf : Instr → Option (BitVec 16)
  | .isinuse item => some item
  | .reserve item _ => some item
  | .lock item _ => some item
  | .release item _ => some item
  | _ => none

/-- R72: two instructions that commute: of different pipelines, of different items, or one of a pipeline and one of an
item. -/
def Instr.independent (i j : Instr) : Prop :=
  (∃ c c', i.pipeOf = some c ∧ j.pipeOf = some c' ∧ c ≠ c') ∨
  (∃ a b, i.itemOf = some a ∧ j.itemOf = some b ∧ a ≠ b) ∨
  (∃ c a, i.pipeOf = some c ∧ j.itemOf = some a)

end Sys2Proof
end

