-- ==== Sys2Proof/Certificates/Slice0/Obligations.lean ====
section
/-! DEFINITION. The statements for the provers, one def each. `exec` and `step` answer an outcome; a statement of a result
concludes that the outcome is a next state and says what it holds. -/

open Sys2Proof Sys2Proof.Machine

/-! ## Words -/

/-- R83 to R99: the decoder reads back every well-formed instruction from the word the encoder writes. -/
def Obligations.DecodeEncode : Prop :=
  ∀ (cfg : Config) (i : Instr), i.wf cfg = true → decode cfg (encode cfg i) = .ok i

/-- Every instruction the decoder reads is well-formed, but for a `BADSIZE` unit that carries `n = 13` (log 18). -/
def Obligations.DecodedWellFormed : Prop :=
  ∀ (cfg : Config) (w : PortWord) (i : Instr), decode cfg w = .ok i → i.wf cfg = true ∨ ∃ c, i = .rxBadsize c 13#16

/-- R117: round trip, frame side. -/
def Obligations.FrameRoundTrip : Prop :=
  ∀ (flags : BitVec 3) (f : Frame), (∀ i < 8, f.len.val ≤ i → payloadByte f.payload i = 0#8) →
    decodeFrame (encodeFrame flags f) = .ok f

/-- R118: round trip, byte side: flags and padding become canonical, all else is equal. -/
def Obligations.WireRoundTrip : Prop :=
  ∀ (flags : BitVec 3) (w : WireWord), (wireByte w 4).toNat ≤ 8 →
    ∃ f, decodeFrame w = .ok f ∧
      (encodeFrame flags f).extractLsb' 101 3 = flags ∧
      (encodeFrame flags f).extractLsb' 72 29 = w.extractLsb' 72 29 ∧
      wireByte (encodeFrame flags f) 4 = wireByte w 4 ∧
      (∀ i < 8, wireByte (encodeFrame flags f) (5 + i) = keptByte w i) ∧
      (w.extractLsb' 101 3 = flags → (∀ i < 8, (wireByte w 4).toNat ≤ i → wireByte w (5 + i) = 0#8) →
        encodeFrame flags f = w)

/-- R114, R119: `decode`, byte by byte. -/
def Obligations.DecodeBytes : Prop :=
  ∀ w : WireWord,
    (8 < (wireByte w 4).toNat → decodeFrame w = .error (wireByte w 4)) ∧
    ((wireByte w 4).toNat ≤ 8 → ∃ f, decodeFrame w = .ok f ∧
      f.id = (be32 (wireByte w 0) (wireByte w 1) (wireByte w 2) (wireByte w 3)).extractLsb' 0 29 ∧
      f.len.val = (wireByte w 4).toNat ∧ ∀ i < 8, payloadByte f.payload i = keptByte w i)

/-- R83, R87: the instruction of a wire word with a legal length byte, by `W[96:89]`, with its operands; a command not in
the table is `UNKNOWN`. -/
def Obligations.CommandMap : Prop :=
  ∀ (cfg : Config) (c : PipeId) (w : WireWord), (wireByte w 4).toNat ≤ 8 →
    ∃ b : Body, b.len.val = (wireByte w 4).toNat ∧ (∀ i < 8, payloadByte b.payload i = keptByte w i) ∧
      let m := w.extractLsb' 89 8
      let known : List (BitVec 8 × (PipeId → Header → Body → Instr)) :=
        [(0x00, .system), (0x01, .discovery), (0x02, .bind), (0x03, .verify), (0x04, .speed), (0x05, .direction),
         (0x06, .function), (0x07, .readConfig), (0x08, .writeConfig), (0x0B, .accSwitch), (0x10, .s88A), (0x11, .s88B),
         (0x18, .ping), (0x1B, .bootloader), (0x1D, .cfgStatus), (0x1E, .vendor1E), (0x1F, .vendor1F), (0x20, .vendor20),
         (0x22, .vendor22)]
      (∀ e ∈ known, m = e.1 → decodeWire cfg c w = e.2 c (wireHeader w) b) ∧
      (m ≠ 0x21 → m ∉ known.map Prod.fst → decodeWire cfg c w = .unknown c m (wireHeader w) b)

/-- R86, R88: the sub-forms of `CFG_DATA`, with their operands read big-endian from the payload bytes. `TRIGGER_MATCH` is
the configuration's set of frames (log 4). -/
def Obligations.StreamForms : Prop :=
  ∀ (cfg : Config) (c : PipeId) (w : WireWord), w.extractLsb' 89 8 = 0x21#8 → (wireByte w 4).toNat ≤ 8 →
    let b := wireByte w
    let total := be32 (b 5) (b 6) (b 7) (b 8)
    let crc : BitVec 16 := b 9 ++ b 10
    let d := w.extractLsb' 0 64
    let f := mkFrame 0x21#8 (wireHeader w) ⟨8, d⟩
    ((b 4).toNat = 6 → decodeWire cfg c w = .cdsAnn6 c (wireHeader w) total crc) ∧
    ((b 4).toNat = 7 → decodeWire cfg c w = .cdsAnn7 c (wireHeader w) total crc (b 11)) ∧
    ((b 4).toNat = 8 → f ∈ cfg.triggers → decodeWire cfg c w = .cdsTrig c (wireHeader w) d) ∧
    ((b 4).toNat = 8 → f ∉ cfg.triggers → decodeWire cfg c w = .cdsData c (wireHeader w) d) ∧
    ((b 4).toNat ≤ 5 → ∃ body : Body, body.len.val = (b 4).toNat ∧ (∀ i < 8, payloadByte body.payload i = keptByte w i) ∧
      decodeWire cfg c w = .cdsShort c (wireHeader w) body)

/-- R82, R85, R90: the transport flag bits and the bytes beyond the length byte do not influence decoding. -/
def Obligations.IgnoredBits : Prop :=
  ∀ (cfg : Config) (c : PipeId) (w w' : WireWord), w.extractLsb' 72 29 = w'.extractLsb' 72 29 →
    wireByte w 4 = wireByte w' 4 → (∀ i < 8, i < (wireByte w 4).toNat → wireByte w (5 + i) = wireByte w' (5 + i)) →
    decodeWire cfg c w = decodeWire cfg c w'

/-- R132: the handler numbers. -/
def Obligations.HandlerNumbers : Prop :=
  let known : List (BitVec 8) := [0x00, 0x01, 0x02, 0x03, 0x04, 0x05, 0x06, 0x07, 0x08, 0x0B, 0x10, 0x11, 0x18, 0x1B, 0x1D,
    0x1E, 0x1F, 0x20, 0x21, 0x22]
  known.map handlerOf = (List.range 20).map (fun k => BitVec.ofNat 5 (k + 1)) ∧ ∀ m, m ∉ known → handlerOf m = 0#5

/-- Words written out in the spec's examples (V-C6, V-R6, 2.6 to 2.8, P3) decode to what they stand for, on the premise of
the default configuration, whose set of trigger frames is empty: that `0x0042030008…` is `CDS.DATA` rests on it (R176;
DESIGN CHOICE, log 4). -/
def Obligations.SampleWords : Prop :=
  let loco : Nat → ObjectId := fun n => ⟨.loco, n⟩
  decode .default (.frame 0 0x1E31471103AABBCC0000000000) =
    .ok (.ping 0 ⟨7, true, true, 0x4711⟩ ⟨3, 0xAABBCC0000000000⟩) ∧
  decode .default (.frame 0 0x0042030006000000084A1A0000) = .ok (.cdsAnn6 0 ⟨0, false, false, 0x0300⟩ 8 0x4A1A) ∧
  decode .default (.frame 0 0x00420300081011121314151617) =
    .ok (.cdsData 0 ⟨0, false, false, 0x0300⟩ 0x1011121314151617) ∧
  decode .default (.lk 0x4000570003) = .ok (.reserve 5 (loco 3)) ∧
  decode .default (.lk 0xC000500000) = .ok (.release 5 .unset) ∧
  decode .default (.cl 0x8000070003) = .ok (.setOrient 0 false (loco 3)) ∧
  decode .default (.ctl 0x10FFFF) = .ok .reset ∧
  decode .default (.ctl 0x200001) = .ok (.pipeStart 1) ∧
  decode .default (.inf 0x010000001E) = .ok (.inflDone 0 true 30)

/-! ## Steps -/

/-- R15, R70: a step carries out the instruction the first enabled word decodes to; the words before it stay. That the
presented words form a list is the model's choice (log 1). -/
def Obligations.StepRunsDecoded : Prop :=
  ∀ (s : State) (before after : List PortWord) (w : PortWord) (i : Instr), s.pending = before ++ w :: after →
    (∀ x ∈ before, NotEnabled s x) → ¬NotEnabled s w → decode s.cfg w = .ok i →
    step s = exec i { s with pending := before ++ after }

/-- R111: a unit that is not enabled stays with its adapter, and with nothing else waiting nothing happens; any other word
is taken. The list of waiting words and the idle step are the model's choice (log 1, log 2). -/
def Obligations.HeldUnitsStay : Prop :=
  ∀ s : State,
    ((∀ w ∈ s.pending, NotEnabled s w) → step s = .next { s with out := .empty }) ∧
    (∀ before w after t, s.pending = before ++ w :: after → (∀ x ∈ before, NotEnabled s x) → ¬NotEnabled s w →
      step s = .next t → t.pending = before ++ after)

/-- R71 for the RX units: those of one pipeline are taken in the order they are presented. That the words of each other
port are taken in order too is the model's choice, with the list of waiting words (DESIGN CHOICE, log 1): R71 leaves free
the order of control-port words, of TX encodes and of the requesters of the lock and cluster ports. -/
def Obligations.PortOrder : Prop :=
  ∀ s t : State, step s = .next t →
    (∀ c : PipeId, let q := fun u : State => u.pending.filter (fun w => rxPipeOf w == some c)
      q t = q s ∨ ∃ w, q s = w :: q t) ∧
    (∀ p : Port, p ≠ .rxu → let q := fun u : State => u.pending.filter (fun w => w.port == p)
      q t = q s ∨ ∃ w, q s = w :: q t)

/-- R100, R219, R270: malformed words and stray answers are refused, and nothing else is. That a reserved unit of a held
pipeline waits first is the model's reading (log 7). -/
def Obligations.RefusedExactly : Prop :=
  ∀ (s : State) (before after : List PortWord) (w : PortWord), s.pending = before ++ w :: after →
    (∀ x ∈ before, NotEnabled s x) → ¬NotEnabled s w →
    (Malformed s.cfg w ∨ StrayAnswer s w →
      step s = .next { s with pending := before ++ after, out := refusal w.port }) ∧
    (∀ t p, step s = .next t → .badRequest p ∈ t.out.events → Malformed s.cfg w ∨ StrayAnswer s w)

/-- The invariants hold after reset, for every configuration that meets R8 and R250. -/
def Obligations.InvReset : Prop := Inv State.reset ∧ ∀ cfg : Config, cfg.wf = true → Inv (State.powerOn cfg)

/-- The invariants of R20, R27 to R36, R40, R61, R223 and R256 are kept by every step, from every state. -/
def Obligations.InvStep : Prop := ∀ s t : State, Inv s → step s = .next t → Inv t

/-- R15: no transaction leaves the block unable to take the next one: where the invariants hold, every instruction and
every step answers a next state. That a step with nothing to take does is the model's choice (log 2), as is that `exec` of
an RX unit does whose pipeline takes none (log 8). -/
def Obligations.NoStop : Prop :=
  ∀ s : State, Inv s → (∃ t, step s = .next t) ∧ ∀ i, ∃ t, exec i s = .next t

/-- R49, R302: the state after reset, element by element; the values are the spec's own decisions (D42, D35). -/
def Obligations.ResetValues : Prop :=
  (∀ (cfg : Config) (c a : Nat), let p := (State.powerOn cfg).pipe c
    p.run = false ∧ p.alive = false ∧ p.cdsState = .idle ∧ p.totalSize = 0 ∧ p.crcAnn = 0 ∧ p.crcCalc = 0 ∧ p.flag = 0 ∧
    p.flagValid = false ∧ p.rxCount = 0 ∧ p.sessHash = 0 ∧ p.name = 0 ∧ p.nameValid = false ∧ p.compressed = false ∧
    p.inflSize = 0 ∧ p.inflState = .inflNone ∧ p.byteAt a = none ∧ Memory.read p.buf a = none) ∧
  (∀ (cfg : Config) (i : Nat), cfg.hasLock = true →
    (State.powerOn cfg).lock i = Table.get .freeUnset cfg.lockInit i) ∧
  (∀ (cfg : Config) (i : Nat), (State.powerOn cfg).orientOf i = false ∧ (State.powerOn cfg).clOrientOf i = false) ∧
  ∀ i, State.reset.lock i = ⟨.free, ⟨.none, 0⟩⟩

/-- R300, R301: `RESET`, from every state. That the tables of an absent option and the waiting words stay as they are is
the model's reading (DEDUCED, log 16). -/
def Obligations.ResetStep : Prop :=
  ∀ s : State, ∃ t, exec .reset s = .next t ∧ t.cfg = s.cfg ∧ t.pending = s.pending ∧ t.out = .empty ∧
    (∀ c, t.pipe c = (State.powerOn s.cfg).pipe c) ∧
    (s.cfg.hasLock = true → ∀ i, t.lock i = Table.get .freeUnset s.cfg.lockInit i) ∧
    (s.cfg.hasLock = false → t.locks = s.locks) ∧
    (s.cfg.hasCluster = true → ∀ i, t.orientOf i = false ∧ t.clOrientOf i = false) ∧
    (s.cfg.hasCluster = false → t.orient = s.orient ∧ t.clOrient = s.clOrient)

/-! ## Frames over all instructions -/

/-- R301, R71: no instruction changes the configuration or the words still waiting. -/
def Obligations.ConfigConstant : Prop :=
  ∀ (i : Instr) (s t : State), exec i s = .next t → t.cfg = s.cfg ∧ t.pending = s.pending

/-- R60, R281: an instruction touches no pipeline but its own; only `RESET` touches all. -/
def Obligations.PipelinesPrivate : Prop :=
  ∀ (i : Instr) (s t : State) (c : Nat), exec i s = .next t → i ≠ .reset → (∀ c', i.pipeOf = some c' → c'.toNat ≠ c) →
    t.pipe c = s.pipe c

/-- R72, for three of its kinds of pairs: instructions of different pipelines, of different items, and one of a pipeline
and one of an item commute, and give the same outputs in either order. `exec` of an RX unit whose pipeline takes none
answers by the model's choice (log 8). -/
def Obligations.IndependentCommute : Prop :=
  ∀ (s : State) (i j : Instr), Inv s → i.independent j →
    ∃ s1 s12 s2 s21, exec i s = .next s1 ∧ exec j s1 = .next s12 ∧ exec j s = .next s2 ∧ exec i s2 = .next s21 ∧
      { s12 with out := .empty } = { s21 with out := .empty } ∧ s1.out = s21.out ∧ s12.out = s2.out

/-- R41, R42, R45, R46, R131, R259: who writes the lock table and the orientation bits. -/
def Obligations.LockAndOrientWriters : Prop :=
  ∀ (i : Instr) (s t : State) (k : Nat), exec i s = .next t → i ≠ .reset →
    (t.lock k ≠ s.lock k → ∃ op item o, i = lockInstr op item o ∧ item.toNat = k) ∧
    (t.orientOf k ≠ s.orientOf k → ∃ (j : BitVec 16) (o : Bool) (loco : ObjectId), i = .setOrient j o loco ∧
      k ∈ (clusterMembersOf s.cfg j.toNat).map Prod.fst) ∧
    (t.clOrientOf k ≠ s.clOrientOf k → ∃ (j : BitVec 16) (o : Bool) (loco : ObjectId), i = .setOrient j o loco ∧
      j.toNat = k)

/-- R37, R38: who writes `run` and `alive`. -/
def Obligations.RunAliveWriters : Prop :=
  ∀ (i : Instr) (s t : State) (c : Nat), exec i s = .next t → i ≠ .reset →
    ((t.pipe c).run ≠ (s.pipe c).run → ∃ c' : PipeId, c'.toNat = c ∧ (i = .pipeStart c' ∨ i = .pipeStop c')) ∧
    ((t.pipe c).alive ≠ (s.pipe c).alive →
      ∃ c' : PipeId, c'.toNat = c ∧ (i = .pipeStart c' ∨ i = .rxClosed c' ∨ i = .rxError c'))

/-- R62: a data frame's eight bytes at `rx_count` are the only write to a buffer: a byte that holds a value after an
instruction held it before, or is one of those. -/
def Obligations.StoredBytes : Prop :=
  ∀ (i : Instr) (s t : State) (c a : Nat) (b : Byte), exec i s = .next t → Memory.read (t.pipe c).buf a = some b →
    Memory.read (s.pipe c).buf a = some b ∨
    ∃ (c' : PipeId) (h : Header) (data : BitVec 64), c'.toNat = c ∧
      (i = .cdsData c' h data ∨ ∃ w, i = .rxFrame c' w ∧ decodeWire s.cfg c' w = .cdsData c' h data) ∧
      (s.pipe c).rxCount.toNat ≤ a ∧ a < (s.pipe c).rxCount.toNat + 8 ∧
      b = payloadByte data (a - (s.pipe c).rxCount.toNat)

/-! ## Routed and dropped frames -/

/-- R134: `SYSTEM`. -/
def Obligations.SystemRouted : Prop :=
  ∀ (s : State) (c : PipeId) (h : Header) (b : Body), Ready s c →
    let f := mkFrame 0x00#8 h b
    exec (.system c h b) s = .next { s with out := { Outputs.empty with
      events := [.dispatch c 1 h.resp]
      handler := some ⟨c, 1, h.resp, f, payloadByte b.payload 4, decide (5 ≤ b.len.val)⟩ } } ∧
    (b.canonical = true → b.len.val < 5 → payloadByte b.payload 4 = 0#8)

/-- R130, R135 to R143: the frame goes to its handler, one event, no state change. -/
def Obligations.DriveCommandsRouted : Prop :=
  ∀ (s : State) (c : PipeId) (h : Header) (b : Body) (i : Instr) (n : BitVec 5) (m : BitVec 8), Ready s c →
    (i, n, m) ∈ driveRoutes c h b →
    exec i s = .next { s with out := routedOut c n (mkFrame m h b) }

/-- R130, R144 to R151, R153: the frame goes to its handler, one event, no state change. -/
def Obligations.OtherCommandsRouted : Prop :=
  ∀ (s : State) (c : PipeId) (h : Header) (b : Body) (i : Instr) (n : BitVec 5) (m : BitVec 8), Ready s c →
    (i, n, m) ∈ otherRoutes c h b →
    exec i s = .next { s with out := routedOut c n (mkFrame m h b) }

/-- R90, R115, R154: an unknown command and a bad length byte: one event, nothing else. -/
def Obligations.DroppedFrames : Prop :=
  ∀ (s : State) (c : PipeId), Ready s c →
    (∀ (m : BitVec 8) (h : Header) (b : Body), exec (.unknown c m h b) s =
      .next { s with out := eventsOnly [.unknownCmd c (m ++ BitVec.ofBool h.resp)] }) ∧
    (∀ lenb : Byte, exec (.illen c lenb) s = .next { s with out := eventsOnly [.invalidLength c lenb] })

/-- R155, R156: a received frame's first event says how it was routed, by its command and response bit, and no later event
of the step does. -/
def Obligations.FirstEvent : Prop :=
  ∀ (s : State) (c : PipeId) (w : WireWord), Inv s → Ready s c →
    ∃ t rest, exec (.rxFrame c w) s = .next t ∧
      t.out.events =
        (if 8 < (wireByte w 4).toNat then Event.invalidLength c (wireByte w 4)
         else if handlerOf (w.extractLsb' 89 8) = 0 then Event.unknownCmd c (w.extractLsb' 88 9)
         else Event.dispatch c (handlerOf (w.extractLsb' 89 8)) (w.getLsbD 88)) :: rest ∧
      (8 < (wireByte w 4).toNat ∨ handlerOf (w.extractLsb' 89 8) ≠ 19 → rest = []) ∧
      ∀ e ∈ rest, (∀ c' h r, e ≠ .dispatch c' h r) ∧ (∀ c' k, e ≠ .unknownCmd c' k) ∧ ∀ c' l, e ≠ .invalidLength c' l

/-- R89, R115: `RX.FRAME` and the instruction its 13 bytes decode to answer the same next state: the two presentations of
a frame agree (the model's choice, log 6). Where the pipeline takes no units R111 says that no step happens, and that
`exec` answers there is the model's choice (log 8). -/
def Obligations.RxFrameRuns : Prop :=
  ∀ (s : State) (c : PipeId) (w : WireWord), Inv s →
    ∃ t, exec (.rxFrame c w) s = .next t ∧ exec (decodeWire s.cfg c w) s = .next t

/-- R112: `RX.BADSIZE` and `RX.TIMEOUT`. R112 excludes the count 13; that it is treated like any other is the model's
choice (log 18). -/
def Obligations.RxNoFrame : Prop :=
  ∀ (s : State) (c : PipeId) (n : BitVec 16), Ready s c →
    exec (.rxBadsize c n) s = .next { s with out := eventsOnly [.badSize c n] } ∧
    exec (.rxTimeout c) s = .next { s with out := .empty }

/-- R113: `RX.CLOSED` and `RX.ERROR`; the next unit of the pipeline is not enabled. -/
def Obligations.RxDead : Prop :=
  ∀ (s : State) (c : PipeId) (i : Instr) (kind : DeadKind), Ready s c →
    (i, kind) ∈ [(Instr.rxClosed c, DeadKind.closed), (Instr.rxError c, DeadKind.error)] →
    ∃ t, exec i s = .next t ∧ OnlyPipe c s t ∧ t.pipe c.toNat = { s.pipe c.toNat with alive := false } ∧
      t.out = eventsOnly [.connDead c kind] ∧ ∀ w, rxPipeOf w = some c → NotEnabled t w

/-! ## The config-data stream -/

/-- R172, R174: an announce opens a session from every state; no byte received before it is readable. -/
def Obligations.AnnounceOpens : Prop :=
  ∀ (s : State) (c : PipeId) (h : Header) (total : BitVec 32) (crc : BitVec 16) (i : Instr) (f : Frame)
    (flag : Byte) (valid : Bool), Ready s c → total.toNat ≤ s.cfg.maxTotal →
    ((i = .cdsAnn6 c h total crc ∧ f = ann6Frame h total crc ∧ flag = 0 ∧ valid = false) ∨
     (i = .cdsAnn7 c h total crc flag ∧ f = ann7Frame h total crc flag ∧ valid = true)) →
    ∃ t, exec i s = .next t ∧ OnlyPipe c s t ∧
      t.pipe c.toNat = { s.pipe c.toNat with
        totalSize := total, crcAnn := crc, flag := flag, flagValid := valid, sessHash := h.hash, rxCount := 0, buf := []
        crcCalc := 0, compressed := false, inflSize := 0, inflState := .inflNone, cdsState := .announced } ∧
      (∀ a, Memory.read (t.pipe c.toNat).buf a = none) ∧
      t.out = streamOut c f [.cdsAnnounced c total crc h.hash]

/-- R173: an announce above `MAX_TOTAL` clears the session. -/
def Obligations.AnnounceRefused : Prop :=
  ∀ (s : State) (c : PipeId) (h : Header) (total : BitVec 32) (crc : BitVec 16) (i : Instr) (f : Frame), Ready s c →
    s.cfg.maxTotal < total.toNat →
    ((i = .cdsAnn6 c h total crc ∧ f = ann6Frame h total crc) ∨
     ∃ flag, i = .cdsAnn7 c h total crc flag ∧ f = ann7Frame h total crc flag) →
    ∃ t, exec i s = .next t ∧ OnlyPipe c s t ∧ t.pipe c.toNat = { Pipe.reset with run := true, alive := true } ∧
      t.out = streamOut c f [.announceRefused c total]

/-- R177: a trigger frame latches the name and changes nothing else. -/
def Obligations.TriggerLatches : Prop :=
  ∀ (s : State) (c : PipeId) (h : Header) (name : BitVec 64), Ready s c →
    ∃ t, exec (.cdsTrig c h name) s = .next t ∧ OnlyPipe c s t ∧
      t.pipe c.toNat = { s.pipe c.toNat with name := name, nameValid := true } ∧
      t.out = streamOut c (cds8Frame h name) [.cdsTrigger c name]

/-- R175, R179, R180: stream frames that change nothing; a missing session is reported before a foreign hash. -/
def Obligations.StreamFramesIgnored : Prop :=
  ∀ (s : State) (c : PipeId) (h : Header), Ready s c →
    (∀ b : Body, ∃ t, exec (.cdsShort c h b) s = .next t ∧ OnlyPipe c s t ∧ t.pipe c.toNat = s.pipe c.toNat ∧
      t.out = streamOut c (mkFrame 0x21#8 h b) [.cdsIgnored c .shortLen]) ∧
    (∀ data : BitVec 64, ¬OpenFor (s.pipe c.toNat) h.hash →
      ∃ t, exec (.cdsData c h data) s = .next t ∧ OnlyPipe c s t ∧ t.pipe c.toNat = s.pipe c.toNat ∧
        t.out = streamOut c (cds8Frame h data)
          [.cdsIgnored c (if (s.pipe c.toNat).cdsState = .announced ∨ (s.pipe c.toNat).cdsState = .accumulating
            then .hashMismatch else .noSession)])

/-- R178, R62: an accepted data frame that does not complete the stream: its eight bytes at `rx_count`, every other byte
as before. -/
def Obligations.DataAppended : Prop :=
  ∀ (s : State) (c : PipeId) (h : Header) (data : BitVec 64), let p := s.pipe c.toNat
    Ready s c → OpenFor p h.hash → p.rxCount.toNat + 8 < p.totalSize.toNat →
    ∃ t, exec (.cdsData c h data) s = .next t ∧ OnlyPipe c s t ∧
      { t.pipe c.toNat with buf := p.buf } = { p with rxCount := p.rxCount + 8, cdsState := .accumulating } ∧
      (∀ a, Memory.read (t.pipe c.toNat).buf a = afterData p data a) ∧
      t.out = streamOut c (cds8Frame h data) [.cdsData c (p.rxCount + 8)]

/-- R181, R183, R216: the data frame that completes a stored stream with the announced CRC. -/
def Obligations.DataCompletesStored : Prop :=
  ∀ (s : State) (c : PipeId) (h : Header) (data : BitVec 64) (d : List Byte), let p := s.pipe c.toNat
    Ready s c → OpenFor p h.hash → LastFrame p data d → crc16 d = p.crcAnn → d.head? ≠ some 0#8 →
    ∃ t, exec (.cdsData c h data) s = .next t ∧ OnlyPipe c s t ∧
      { t.pipe c.toNat with buf := p.buf } = { p with
        rxCount := p.rxCount + 8, cdsState := .complete, crcCalc := p.crcAnn, compressed := false, inflSize := 0
        inflState := .inflNone } ∧
      (∀ a, Memory.read (t.pipe c.toNat).buf a = afterData p data a) ∧
      t.out = streamOut c (cds8Frame h data) [.cdsData c (p.rxCount + 8), .cdsComplete c p.totalSize false]

/-- R182, R207: the data frame that completes a stream with another CRC: the stream is discarded, whatever its first byte
is, and the inflater is not started. -/
def Obligations.DataCrcError : Prop :=
  ∀ (s : State) (c : PipeId) (h : Header) (data : BitVec 64) (d : List Byte), let p := s.pipe c.toNat
    Ready s c → OpenFor p h.hash → LastFrame p data d → crc16 d ≠ p.crcAnn →
    ∃ t, exec (.cdsData c h data) s = .next t ∧ OnlyPipe c s t ∧
      t.pipe c.toNat = { p with
        cdsState := .crcError, rxCount := 0, buf := [], crcCalc := crc16 d, compressed := false, inflSize := 0
        inflState := .inflNone, name := 0, nameValid := false } ∧
      t.out = streamOut c (cds8Frame h data) [.cdsData c (p.rxCount + 8), .crcError c p.crcAnn (crc16 d)]

/-- R216 to R218: the data frame that completes a compressed stream with a whole size prefix: the inflater is asked for
bytes `4 .. total_size - 1`. -/
def Obligations.DataStartsInflate : Prop :=
  ∀ (s : State) (c : PipeId) (h : Header) (data : BitVec 64) (b1 b2 b3 : Byte) (d : List Byte), let p := s.pipe c.toNat
    Ready s c → OpenFor p h.hash → LastFrame p data (0#8 :: b1 :: b2 :: b3 :: d) →
    crc16 (0#8 :: b1 :: b2 :: b3 :: d) = p.crcAnn →
    let size := be32 0#8 b1 b2 b3
    ∃ t, exec (.cdsData c h data) s = .next t ∧ OnlyPipe c s t ∧
      { t.pipe c.toNat with buf := p.buf } = { p with
        rxCount := p.rxCount + 8, cdsState := .complete, crcCalc := p.crcAnn, compressed := true, inflSize := size
        inflState := .inflPending } ∧
      (∀ a, Memory.read (t.pipe c.toNat).buf a = afterData p data a) ∧
      t.out = { streamOut c (cds8Frame h data)
          [.cdsData c (p.rxCount + 8), .inflateStart c 4 (p.totalSize - 4) size] with
        inflateRequest := some ⟨c, 4, p.totalSize - 4, size⟩ }

/-- R216: a compressed stream of fewer than four bytes cannot hold its size prefix. -/
def Obligations.DataShortPrefix : Prop :=
  ∀ (s : State) (c : PipeId) (h : Header) (data : BitVec 64) (d : List Byte), let p := s.pipe c.toNat
    Ready s c → OpenFor p h.hash → LastFrame p data (0#8 :: d) → crc16 (0#8 :: d) = p.crcAnn → d.length < 3 →
    ∃ t, exec (.cdsData c h data) s = .next t ∧ OnlyPipe c s t ∧
      { t.pipe c.toNat with buf := p.buf } = { p with
        rxCount := p.rxCount + 8, cdsState := .complete, crcCalc := p.crcAnn, compressed := true
        inflState := .inflErr } ∧
      (∀ a, Memory.read (t.pipe c.toNat).buf a = afterData p data a) ∧
      t.out = streamOut c (cds8Frame h data) [.cdsData c (p.rxCount + 8), .decompressError c .shortPrefix]

/-- R219: `INFL_DONE`. -/
def Obligations.InflateAnswer : Prop :=
  ∀ (s : State) (c : PipeId) (ok : Bool) (outLen : BitVec 32), let p := s.pipe c.toNat
    c.toNat < s.cfg.nConn →
    (p.inflState = .inflPending → ∃ t, exec (.inflDone c ok outLen) s = .next t ∧ OnlyPipe c s t ∧
      if ok = true ∧ outLen = p.inflSize then
        t.pipe c.toNat = { p with inflState := .inflOk } ∧ t.out = eventsOnly [.cdsComplete c p.inflSize true]
      else
        t.pipe c.toNat = { p with inflState := .inflErr } ∧
        t.out = eventsOnly [.decompressError c (if ok = false then .inflateFailed else .lengthMismatch)]) ∧
    (p.inflState ≠ .inflPending → exec (.inflDone c ok outLen) s = .next { s with out := refusal .inf })

/-- R185: `CDS_ACK`. -/
def Obligations.AckEffect : Prop :=
  ∀ (s : State) (c : PipeId), let p := s.pipe c.toNat
    c.toNat < s.cfg.nConn →
    ∃ t, exec (.cdsAck c) s = .next t ∧ OnlyPipe c s t ∧
      if p.inflState ≠ .inflPending ∧ (p.cdsState = .complete ∨ p.cdsState = .crcError) then
        t.pipe c.toNat = { Pipe.reset with run := p.run, alive := p.alive } ∧ t.out = eventsOnly [.cdsAcked c]
      else t.pipe c.toNat = p ∧ t.out = .empty

/-- R304, R305: `PIPE_START` and `PIPE_STOP`. -/
def Obligations.StartStop : Prop :=
  ∀ (s : State) (c : PipeId), c.toNat < s.cfg.nConn →
    (∃ t, exec (.pipeStart c) s = .next t ∧ OnlyPipe c s t ∧
      t.pipe c.toNat = { Pipe.reset with run := true, alive := true } ∧ t.out = .empty) ∧
    (∃ t, exec (.pipeStop c) s = .next t ∧ OnlyPipe c s t ∧
      t.pipe c.toNat = { s.pipe c.toNat with run := false } ∧ t.out = .empty)

/-! ## The lock table -/

/-- R239, R237, R238: the whole transition table, which the spec derives from R232 to R234, with responses and events. -/
def Obligations.LockPortTable : Prop :=
  ∀ (s : State) (item : BitVec 16), s.cfg.hasLock = true → item.toNat < s.cfg.nItems → let e := s.lock item.toNat
    (∀ (op : LockOp) (o : ObjectId), o.illFormed = false →
      ∃ t, exec (lockInstr op item o) s = .next t ∧ { t with locks := s.locks, out := s.out } = s ∧
        (∀ k, k ≠ item.toNat → t.lock k = s.lock k) ∧
        match lockTable op e o with
        | none => t.lock item.toNat = e ∧
            t.out = { eventsOnly [.lockFail item op o] with lockResponse := some ⟨false, false⟩ }
        | some e' => t.lock item.toNat = e' ∧
            t.out = { eventsOnly (if e' = e then [] else [.lockChanged item e e']) with
              lockResponse := some ⟨true, false⟩ }) ∧
    exec (.isinuse item) s = .next { s with out := { Outputs.empty with
      lockResponse := some ⟨true, decide (e.lockState ≠ .free ∨ e.owner.isSet = true)⟩ } }

/-- R241: mutual exclusion, over every sequence of transactions. -/
def Obligations.MutualExclusion : Prop :=
  ∀ (item : BitVec 16) (a : ObjectId), a.isSet = true →
    (∀ s t, exec (.reserve item a) s = .next t → t.out.lockResponse = some ⟨true, false⟩ →
      (t.lock item.toNat).owner = a) ∧
    (∀ s t is, (s.lock item.toNat).owner = a → execAll is s = .next t →
      .reset ∉ is → .release item a ∉ is → .release item .unset ∉ is →
      (t.lock item.toNat).owner = a ∧
      ∀ (b : ObjectId) (op : LockOp), b.isSet = true → b ≠ a →
        ∃ u, exec (lockInstr op item b) t = .next u ∧ u.locks = t.locks ∧ u.out.lockResponse = some ⟨false, false⟩)

/-- R244, R240: consistency is kept by every instruction and holds in every run from a consistent `LOCK_INIT`; from the
default one no entry is `SoftLocked`. -/
def Obligations.LockInvariant : Prop :=
  (∀ (i : Instr) (s t : State) (k : Nat), exec i s = .next t → i ≠ .reset → consistentEntry (s.lock k) →
    consistentEntry (t.lock k)) ∧
  (∀ (cfg : Config) (ws : List PortWord) (t : State), lockInitConsistent cfg → Reaches (poweredWith cfg ws) t →
    LocksConsistent t) ∧
  (∀ (cfg : Config) (ws : List PortWord) (t : State), cfg.lockInit = [] → Reaches (poweredWith cfg ws) t → NoSoftLock t)

/-! ## The clusters -/

/-- R253: `CAN_SET_ORIENT` reads only. -/
def Obligations.CanSetAnswers : Prop :=
  ∀ (s : State) (k : BitVec 16) (o : Bool) (loco : ObjectId), ClusterRequest s k loco →
    ∃ ok, exec (.canSetOrient k o loco) s = .next { s with out := { Outputs.empty with clusterOk := some ok } } ∧
      (ok = true ↔ o = s.clOrientOf k.toNat ∨ Unblocked s k.toNat o loco)

/-- R254: `SET_ORIENT`. -/
def Obligations.SetOrientEffect : Prop :=
  ∀ (s : State) (k : BitVec 16) (o : Bool) (loco : ObjectId), ClusterRequest s k loco →
    (o = s.clOrientOf k.toNat → exec (.setOrient k o loco) s =
      .next { s with out := { Outputs.empty with clusterOk := some true } }) ∧
    (o ≠ s.clOrientOf k.toNat → ¬Unblocked s k.toNat o loco → exec (.setOrient k o loco) s =
      .next { s with out := { eventsOnly [.orientBlocked k o loco] with clusterOk := some false } }) ∧
    (o ≠ s.clOrientOf k.toNat → Unblocked s k.toNat o loco → ∃ t, exec (.setOrient k o loco) s = .next t ∧
      { t with orient := s.orient, clOrient := s.clOrient, out := s.out } = s ∧
      (∀ i, t.orientOf i = if i ∈ (clusterMembersOf s.cfg k.toNat).map Prod.fst then o else s.orientOf i) ∧
      (∀ j, t.clOrientOf j = if j = k.toNat then o else s.clOrientOf j) ∧
      t.out = { eventsOnly [.orientChanged k o loco] with clusterOk := some true })

/-- R257: after a successful `SET_ORIENT` every member's effective orientation is the required one. -/
def Obligations.ClusterConsistency : Prop :=
  ∀ (s t : State) (k : BitVec 16) (o : Bool) (loco : ObjectId), Inv s → exec (.setOrient k o loco) s = .next t →
    t.out.clusterOk = some true → ∀ m ∈ clusterMembersOf s.cfg k.toNat, (t.orientOf m.1 ^^ m.2) = (o ^^ m.2)

/-- R258: a successful `SET_ORIENT` never turns an item under another holder. -/
def Obligations.HolderSafety : Prop :=
  ∀ (s t : State) (k : BitVec 16) (o : Bool) (loco : ObjectId), exec (.setOrient k o loco) s = .next t →
    t.out.clusterOk = some true → ∀ i, HeldByOther s i loco → t.orientOf i = s.orientOf i

/-! ## Transmission and the CRC engine -/

/-- R116: `ENCODE`, byte by byte; it depends on no pipeline and changes no state. -/
def Obligations.EncodeSends : Prop :=
  ∀ (s : State) (c : PipeId) (id : BitVec 29) (len : BitVec 4) (payload : BitVec 64), c.toNat < s.cfg.nConn →
    (len.toNat ≤ 8 → ∃ w : WireWord,
      exec (.encode c id len payload) s = .next { s with out := { Outputs.empty with tx := some ⟨c, w⟩ } } ∧
      be32 (wireByte w 0) (wireByte w 1) (wireByte w 2) (wireByte w 3) = s.cfg.txIdFlags ++ id ∧
      (wireByte w 4).toNat = len.toNat ∧
      ∀ i < 8, wireByte w (5 + i) = if i < len.toNat then payloadByte payload i else 0#8) ∧
    (8 < len.toNat → exec (.encode c id len payload) s = .next { s with out := refusal .tx })

/-- R204: the byte-at-a-time form and the table form of `crc16_update`, which the spec derives from R202; the polynomial is
the spec's own choice (R201, log 11). -/
def Obligations.CrcForms : Prop :=
  (∀ (r : BitVec 16) (b : Byte), crcUpdate r b = crcUpdateByte r b) ∧
  (∀ (r : BitVec 16) (b : Byte), crcUpdate r b = (r <<< 8) ^^^ crcUpdate 0 ((r >>> 8).setWidth 8 ^^^ b)) ∧
  crcUpdate 0 0 = 0x0000 ∧ crcUpdate 0 1 = 0x1021 ∧ crcUpdate 0 2 = 0x2042 ∧ crcUpdate 0 255 = 0x1EF0

/-- R209 (b), (c), (d) and the part of (e) that R188 rests on: a change confined to one byte is always detected. The laws
rest on the CRC's parameters, general knowledge that the spec adopts (R201; PRESUMED, log 11). -/
def Obligations.CrcLaws : Prop :=
  (∀ a b, crc16 (a ++ b) = crcFold (crc16 a) b) ∧
  (∀ a b c, a.length = b.length → b.length = c.length →
    crc16 a ^^^ crc16 b ^^^ crc16 c = crc16 (List.zipWith (· ^^^ ·) (List.zipWith (· ^^^ ·) a b) c)) ∧
  (∀ d, crc16 (d ++ [(crc16 d).extractLsb' 8 8, (crc16 d).extractLsb' 0 8]) = 0#16) ∧
  (∀ a x y d, x ≠ y → crc16 (a ++ x :: d) ≠ crc16 (a ++ y :: d))

/-- R211, R210: worked values, under the parameters of R201 (log 11). -/
def Obligations.CrcValues : Prop :=
  crc16 [] = 0xFFFF ∧ crc16 [0x00] = 0xE1F0 ∧ crc16 [0xFF] = 0xFF00 ∧ crc16 [0x41] = 0xB915 ∧ crc16 [0x00, 0x00] = 0x1D0F ∧
  crc16 [0xFF, 0xFF] = 0x0000 ∧ crc16 [0x31, 0x32, 0x33, 0x34, 0x35, 0x36, 0x37, 0x38, 0x39] = 0x29B1 ∧
  crcUpdate 0xFFFF 0x31 = 0xC782 ∧ crcUpdate 0xC782 0x32 = 0x3DBA

/-! ## Rules of the whole machine -/

/-- R78, R218: while an inflation is pending no instruction but `PIPE_START` and `RESET` changes anything of the pipeline
except `run` and `infl_state`, and none but the answer changes `infl_state` or what the inflater reads. For the RX units of
the pipeline this is about `exec`, which leaves the state as it is there by the model's choice (log 8); R111 says that they
are not taken. -/
def Obligations.InflationStable : Prop :=
  ∀ (i : Instr) (s t : State) (c : PipeId), let p := s.pipe c.toNat
    p.inflState = .inflPending → exec i s = .next t → i ≠ .reset → i ≠ .pipeStart c →
    ∃ (r : Bool) (st : InflState), t.pipe c.toNat = { p with run := r, inflState := st } ∧
      ((∀ ok n, i ≠ .inflDone c ok n) → st = .inflPending ∧ inflaterSpan (t.pipe c.toNat) = inflaterSpan p)

/-- R186: the moves of the reassembler: which instruction can take it from which state to which. -/
def Obligations.CdsTransitions : Prop :=
  ∀ (i : Instr) (s t : State) (c : PipeId), exec i s = .next t →
    let old := (s.pipe c.toNat).cdsState
    let new := (t.pipe c.toNat).cdsState
    let frame : Instr → Prop := fun j => i = j ∨ ∃ w, i = .rxFrame c w ∧ decodeWire s.cfg c w = j
    let announce : BitVec 32 → Prop := fun n =>
      (∃ h crc, frame (.cdsAnn6 c h n crc)) ∨ ∃ h crc flag, frame (.cdsAnn7 c h n crc flag)
    new ≠ old →
      (new = .announced ∧ ∃ n, announce n ∧ n.toNat ≤ s.cfg.maxTotal) ∨
      (new = .idle ∧ ((∃ n, announce n ∧ s.cfg.maxTotal < n.toNat) ∨ i = .pipeStart c ∨ i = .reset ∨
        (i = .cdsAck c ∧ (old = .complete ∨ old = .crcError)))) ∨
      ((new = .accumulating ∨ new = .complete ∨ new = .crcError) ∧ (old = .announced ∨ old = .accumulating) ∧
        ∃ h data, frame (.cdsData c h data) ∧ h.hash = (s.pipe c.toNat).sessHash)

/-- R222, R73: what the consumer receives with `EV_CDS_COMPLETE`: the announced length, and for a stored stream exactly
the bytes whose CRC was announced, through its own reads. -/
def Obligations.DeliveredAtComplete : Prop :=
  ∀ (i : Instr) (s t : State) (c : PipeId) (len : BitVec 32) (z : Bool), Inv s → exec i s = .next t →
    .cdsComplete c len z ∈ t.out.events →
    let p := t.pipe c.toNat
    p.cdsState = .complete ∧ p.compressed = z ∧ deliveredLength p = some len ∧
    ∃ d, consumerRead p 0 p.totalSize.toNat = some d ∧ d.length = p.totalSize.toNat ∧ crc16 d = p.crcAnn ∧
      (z = false → len = p.totalSize ∧ deliveredStored p = some d ∧ d.head? ≠ some 0#8) ∧
      (z = true → len = p.inflSize ∧ d.head? = some 0#8)

/-- R267: the code of every event. -/
def Obligations.EventCodes : Prop :=
  ∀ (c : PipeId) (n : BitVec 16) (l : Byte) (p : Port) (hd : BitVec 5) (r : Bool) (k : BitVec 9) (t u : BitVec 32)
    (x y : BitVec 16) (m : BitVec 33) (v : BitVec 64) (ig : IgnoreReason) (ir : InflReason) (e e' : LockEntry)
    (op : LockOp) (o : ObjectId) (dk : DeadKind),
    [Event.badSize c n, .invalidLength c l, .badRequest p, .dispatch c hd r, .unknownCmd c k, .cdsAnnounced c t x y,
     .cdsData c m, .cdsTrigger c v, .cdsIgnored c ig, .cdsComplete c t r, .crcError c x y, .inflateStart c m t u,
     .decompressError c ir, .announceRefused c t, .cdsAcked c, .lockChanged n e e', .lockFail n op o,
     .orientChanged n r o, .orientBlocked n r o, .connDead c dk].map (fun e => (e.code, e.cls)) =
    [(0x01, .log), (0x02, .log), (0x03, .log), (0x10, .log), (0x11, .log), (0x20, .log), (0x21, .log), (0x22, .log),
     (0x23, .log), (0x24, .notify), (0x25, .log), (0x26, .notify), (0x27, .log), (0x28, .log), (0x29, .log),
     (0x30, .notify), (0x32, .log), (0x38, .notify), (0x39, .log), (0x40, .log)]
end

