-- ==== Sys2Proof/Laws/Operands.lean ====
section
/-! SUPPORT. Laws of operand assembly and of the codes: each view of an assembled frame or word is the part it was
assembled from. Bit strings are compared as numbers, so that linear arithmetic closes the goals. -/

namespace Sys2Proof

/-- A concatenation as a number. -/
theorem toNat_append_mul {v w : Nat} (x : BitVec v) (y : BitVec w) : (x ++ y).toNat = x.toNat * 2 ^ w + y.toNat := by
  rw [BitVec.toNat_append, ← Nat.shiftLeft_add_eq_or_of_lt y.isLt, Nat.shiftLeft_eq]

/-- One bit as a number. -/
theorem getLsbD_eq_decide {w : Nat} (x : BitVec w) (i : Nat) : x.getLsbD i = decide (x.toNat / 2 ^ i % 2 = 1) := by
  rw [BitVec.getLsbD, Nat.testBit_eq_decide_div_mod_eq]

theorem toNat_decide_mod_two (n : Nat) : (decide (n % 2 = 1)).toNat = n % 2 := by
  rcases Nat.mod_two_eq_zero_or_one n with h | h <;> simp [h]

/-- A field as a number. -/
theorem extractLsb'_toNat_div {w : Nat} (x : BitVec w) (lo len : Nat) :
    (x.extractLsb' lo len).toNat = x.toNat / 2 ^ lo % 2 ^ len := by
  rw [BitVec.extractLsb'_toNat, Nat.shiftRight_eq_div_pow]

/-! ## Assembled frames -/

theorem frameId_toNat (h : Header) (cmd : BitVec 8) : (frameId h cmd).toNat =
    h.prio.toNat * 67108864 + h.b25.toNat * 33554432 + cmd.toNat * 131072 + h.resp.toNat * 65536 + h.hash.toNat := by
  unfold frameId
  simp only [toNat_append_mul, BitVec.toNat_ofBool]
  omega

@[simp] theorem mkFrame_len (cmd : BitVec 8) (h : Header) (b : Body) : (mkFrame cmd h b).len = b.len := rfl
@[simp] theorem mkFrame_payload (cmd : BitVec 8) (h : Header) (b : Body) : (mkFrame cmd h b).payload = b.payload := rfl
@[simp] theorem mkFrame_body (cmd : BitVec 8) (h : Header) (b : Body) : (mkFrame cmd h b).body = b := rfl

@[simp] theorem mkFrame_prio (cmd : BitVec 8) (h : Header) (b : Body) : (mkFrame cmd h b).prio = h.prio := by
  apply BitVec.eq_of_toNat_eq
  simp only [Frame.prio, mkFrame, extractLsb'_toNat_div, frameId_toNat]
  have := h.prio.isLt; have := cmd.isLt; have := h.hash.isLt
  have := Bool.toNat_le h.b25; have := Bool.toNat_le h.resp
  omega

@[simp] theorem mkFrame_cmd (cmd : BitVec 8) (h : Header) (b : Body) : (mkFrame cmd h b).cmd = cmd := by
  apply BitVec.eq_of_toNat_eq
  simp only [Frame.cmd, mkFrame, extractLsb'_toNat_div, frameId_toNat]
  have := h.prio.isLt; have := cmd.isLt; have := h.hash.isLt
  have := Bool.toNat_le h.b25; have := Bool.toNat_le h.resp
  omega

@[simp] theorem mkFrame_hash (cmd : BitVec 8) (h : Header) (b : Body) : (mkFrame cmd h b).hash = h.hash := by
  apply BitVec.eq_of_toNat_eq
  simp only [Frame.hash, mkFrame, extractLsb'_toNat_div, frameId_toNat]
  have := h.prio.isLt; have := cmd.isLt; have := h.hash.isLt
  have := Bool.toNat_le h.b25; have := Bool.toNat_le h.resp
  omega

@[simp] theorem mkFrame_resp (cmd : BitVec 8) (h : Header) (b : Body) : (mkFrame cmd h b).resp = h.resp := by
  simp only [Frame.resp, mkFrame, getLsbD_eq_decide, frameId_toNat]
  have := h.prio.isLt; have := cmd.isLt; have := h.hash.isLt
  have := Bool.toNat_le h.b25
  cases h.resp <;> simp <;> omega

@[simp] theorem mkFrame_b25 (cmd : BitVec 8) (h : Header) (b : Body) : (mkFrame cmd h b).b25 = h.b25 := by
  simp only [Frame.b25, mkFrame, getLsbD_eq_decide, frameId_toNat]
  have := h.prio.isLt; have := cmd.isLt; have := h.hash.isLt
  have := Bool.toNat_le h.resp
  cases h.b25 <;> simp <;> omega

@[simp] theorem mkFrame_header (cmd : BitVec 8) (h : Header) (b : Body) : (mkFrame cmd h b).header = h := by
  simp [Frame.header]

/-- The 9-bit command field is the command and the response bit (R83). -/
theorem Frame.cmd9_toNat (f : Frame) : f.cmd9.toNat = 2 * f.cmd.toNat + f.resp.toNat := by
  simp only [Frame.cmd9, Frame.cmd, Frame.resp, extractLsb'_toNat_div, getLsbD_eq_decide, toNat_decide_mod_two]
  omega

/-! ## Announce payloads -/

theorem ann6Payload_total (total : BitVec 32) (crc : BitVec 16) :
    (ann6Payload total crc).extractLsb' 32 32 = total := by
  apply BitVec.eq_of_toNat_eq
  simp only [ann6Payload, extractLsb'_toNat_div, toNat_append_mul, BitVec.toNat_ofNat]
  have := total.isLt; have := crc.isLt
  omega

theorem ann6Payload_crc (total : BitVec 32) (crc : BitVec 16) : (ann6Payload total crc).extractLsb' 16 16 = crc := by
  apply BitVec.eq_of_toNat_eq
  simp only [ann6Payload, extractLsb'_toNat_div, toNat_append_mul, BitVec.toNat_ofNat]
  have := total.isLt; have := crc.isLt
  omega

theorem ann7Payload_total (total : BitVec 32) (crc : BitVec 16) (flag : Byte) :
    (ann7Payload total crc flag).extractLsb' 32 32 = total := by
  apply BitVec.eq_of_toNat_eq
  simp only [ann7Payload, extractLsb'_toNat_div, toNat_append_mul, BitVec.toNat_ofNat]
  have := total.isLt; have := crc.isLt; have := flag.isLt
  omega

theorem ann7Payload_crc (total : BitVec 32) (crc : BitVec 16) (flag : Byte) :
    (ann7Payload total crc flag).extractLsb' 16 16 = crc := by
  apply BitVec.eq_of_toNat_eq
  simp only [ann7Payload, extractLsb'_toNat_div, toNat_append_mul, BitVec.toNat_ofNat]
  have := total.isLt; have := crc.isLt; have := flag.isLt
  omega

theorem ann7Payload_flag (total : BitVec 32) (crc : BitVec 16) (flag : Byte) :
    payloadByte (ann7Payload total crc flag) 6 = flag := by
  apply BitVec.eq_of_toNat_eq
  simp only [payloadByte, ann7Payload, extractLsb'_toNat_div, toNat_append_mul, BitVec.toNat_ofNat]
  have := total.isLt; have := crc.isLt; have := flag.isLt
  omega

@[simp] theorem ann6Frame_annTotal (h : Header) (total : BitVec 32) (crc : BitVec 16) :
    (ann6Frame h total crc).annTotal = total := ann6Payload_total total crc
@[simp] theorem ann6Frame_annCrc (h : Header) (total : BitVec 32) (crc : BitVec 16) :
    (ann6Frame h total crc).annCrc = crc := ann6Payload_crc total crc
@[simp] theorem ann7Frame_annTotal (h : Header) (total : BitVec 32) (crc : BitVec 16) (flag : Byte) :
    (ann7Frame h total crc flag).annTotal = total := ann7Payload_total total crc flag
@[simp] theorem ann7Frame_annCrc (h : Header) (total : BitVec 32) (crc : BitVec 16) (flag : Byte) :
    (ann7Frame h total crc flag).annCrc = crc := ann7Payload_crc total crc flag
@[simp] theorem ann7Frame_annFlag (h : Header) (total : BitVec 32) (crc : BitVec 16) (flag : Byte) :
    (ann7Frame h total crc flag).annFlag = flag := ann7Payload_flag total crc flag

/-! ## The wire word -/

/-- Padding bytes as a number: `keepBytes` clears the low `8 - n` bytes. -/
theorem keepBytes_toNat (n : Nat) (d : BitVec 64) :
    (keepBytes n d).toNat = d.toNat / 2 ^ (64 - 8 * n) * 2 ^ (64 - 8 * n) := by
  simp only [keepBytes, BitVec.toNat_shiftLeft, BitVec.toNat_ushiftRight, Nat.shiftRight_eq_div_pow, Nat.shiftLeft_eq]
  refine Nat.mod_eq_of_lt (Nat.lt_of_le_of_lt (Nat.div_mul_le_self _ _) d.isLt)

@[simp] theorem keepBytes_keepBytes (n : Nat) (d : BitVec 64) : keepBytes n (keepBytes n d) = keepBytes n d := by
  apply BitVec.eq_of_toNat_eq
  rw [keepBytes_toNat, keepBytes_toNat, Nat.mul_div_cancel _ (Nat.two_pow_pos _)]

/-- R81: the wire word as a number. -/
theorem encodeFrame_toNat (flags : BitVec 3) (f : Frame) : (encodeFrame flags f).toNat =
    flags.toNat * 2 ^ 101 + f.id.toNat * 2 ^ 72 + f.len.val * 2 ^ 64 + (keepBytes f.len.val f.payload).toNat := by
  unfold encodeFrame
  simp only [toNat_append_mul, BitVec.toNat_ofNat]
  have := f.len.isLt
  omega

/-! ## Codes -/

@[simp] theorem ObjType.ofCode_code (t : ObjType) : ObjType.ofCode t.code = t := by cases t <;> rfl

@[simp] theorem ObjId_unset_isSet : ObjectId.unset.isSet = false := rfl

/-- A well-formed identifier is unset or has both fields set (R40). -/
theorem ObjectId.wf_cases {o : ObjectId} (h : o.illFormed = false) :
    (o = .unset ∧ o.isSet = false) ∨ (o.isSet = true ∧ o.id ≠ 0) := by
  obtain ⟨t, n⟩ := o
  by_cases hn : n = 0
  · subst hn; cases t <;> simp_all [ObjectId.illFormed, ObjectId.isSet, ObjectId.unset]
  · right; cases t <;> simp_all [ObjectId.illFormed, ObjectId.isSet]

end Sys2Proof
end

