-- ==== Sys2Proof/Laws/Bits.lean ====
section
/-! SUPPORT. Fields of concatenated words, and payload bytes: what the codec statements are proved with. -/

namespace Sys2Proof

/-- A field of a field. -/
theorem extractLsb'_field {n : Nat} (x : BitVec n) (a b c d : Nat) (h : c + d ≤ b) :
    (x.extractLsb' a b).extractLsb' c d = x.extractLsb' (a + c) d := by
  apply BitVec.eq_of_getLsbD_eq
  intro i hi
  simp only [BitVec.getLsbD_extractLsb']
  have : c + i < b := by omega
  simp [hi, this, Nat.add_assoc]

/-- A field inside the low part of a concatenation. -/
theorem extractLsb'_append_low {a b : Nat} (x : BitVec a) (y : BitVec b) (s n : Nat) (h : s + n ≤ b) :
    (x ++ y).extractLsb' s n = y.extractLsb' s n := by
  apply BitVec.eq_of_getLsbD_eq
  intro i hi
  have : s + i < b := by omega
  simp [BitVec.getLsbD_append, hi, this]

/-- A field inside the high part of a concatenation. -/
theorem extractLsb'_append_high {a b : Nat} (x : BitVec a) (y : BitVec b) (s n : Nat) (h : b ≤ s) :
    (x ++ y).extractLsb' s n = x.extractLsb' (s - b) n := by
  apply BitVec.eq_of_getLsbD_eq
  intro i hi
  have : ¬ s + i < b := by omega
  have h2 : s + i - b = s - b + i := by omega
  simp [BitVec.getLsbD_append, hi, this, h2]

/-- The field that is the whole word. -/
theorem extractLsb'_whole {n : Nat} (x : BitVec n) : x.extractLsb' 0 n = x := by
  apply BitVec.eq_of_getLsbD_eq
  intro i hi
  simp [hi]

/-- Two neighbouring fields are one. -/
theorem extractLsb'_join {n : Nat} (x : BitVec n) (s a b : Nat) :
    x.extractLsb' (s + b) a ++ x.extractLsb' s b = x.extractLsb' s (a + b) := by
  apply BitVec.eq_of_getLsbD_eq
  intro i hi
  rw [BitVec.getLsbD_append, BitVec.getLsbD_extractLsb', BitVec.getLsbD_extractLsb', BitVec.getLsbD_extractLsb']
  by_cases h : i < b
  · simp only [h, if_true, hi, decide_true]
  · have h1 : i - b < a := by omega
    have h2 : s + b + (i - b) = s + i := by omega
    simp only [h, if_false, hi, h1, h2, decide_true]

/-- R85: a payload byte after the padding is cleared. -/
theorem payloadByte_keepBytes (n : Nat) (hn : n ≤ 8) (d : BitVec 64) (i : Nat) (hi : i < 8) :
    payloadByte (keepBytes n d) i = if i < n then payloadByte d i else 0#8 := by
  apply BitVec.eq_of_getLsbD_eq
  intro j hj
  have hlt : 56 - 8 * i + j < 64 := by omega
  simp only [payloadByte, keepBytes, BitVec.getLsbD_extractLsb', hj, decide_true, Bool.true_and, BitVec.getLsbD_shiftLeft,
    BitVec.getLsbD_ushiftRight, hlt]
  by_cases h : i < n
  · have h1 : ¬ (56 - 8 * i + j < 64 - 8 * n) := by omega
    have h2 : 64 - 8 * n + (56 - 8 * i + j - (64 - 8 * n)) = 56 - 8 * i + j := by omega
    simp [h, h1, h2, hj]
  · have h1 : (56 - 8 * i + j < 64 - 8 * n) := by omega
    simp [h, h1]

/-- A payload is its eight bytes. -/
theorem payload_ext {d e : BitVec 64} (h : ∀ i < 8, payloadByte d i = payloadByte e i) : d = e := by
  apply BitVec.eq_of_getLsbD_eq
  intro j hj
  have := congrArg (fun b => b.getLsbD (j % 8)) (h (7 - j / 8) (by omega))
  simp only [payloadByte, BitVec.getLsbD_extractLsb'] at this
  have e1 : 56 - 8 * (7 - j / 8) + j % 8 = j := by omega
  rw [e1] at this
  simpa [Nat.mod_lt] using this

/-- R81: a payload byte of a wire word. -/
theorem payloadByte_wire (w : WireWord) (i : Nat) (hi : i < 8) :
    payloadByte (w.extractLsb' 0 64) i = Machine.wireByte w (5 + i) := by
  unfold payloadByte Machine.wireByte
  rw [extractLsb'_field _ _ _ _ _ (by omega)]
  congr 1
  omega

end Sys2Proof
end

