-- ==== Sys2Proof/Laws/Memory.lean ====
section
/-! SUPPORT. Laws of the sparse data: read after write, and every operation keeps the canonical form. -/

namespace Sys2Proof.Machine

variable {α : Type}

theorem lookupCell_putCell_same (m : List (Nat × α)) (k : Nat) (v : α) : lookupCell (putCell m k v) k = some v := by
  induction m with
  | nil => simp [putCell, lookupCell]
  | cons e m ih =>
    simp only [putCell]
    split
    · simp [lookupCell]
    · split
      · simp [lookupCell]
      · simp [lookupCell, *]

theorem lookupCell_putCell_ne (m : List (Nat × α)) {k j : Nat} (v : α) (h : j ≠ k) :
    lookupCell (putCell m k v) j = lookupCell m j := by
  induction m with
  | nil => simp [putCell, lookupCell, h]
  | cons e m ih =>
    simp only [putCell]
    split
    · simp [lookupCell, h]
    · split
      · subst_vars; simp [lookupCell, h]
      · simp [lookupCell, ih]

theorem lookupCell_dropCell_same (m : List (Nat × α)) (k : Nat) : lookupCell (dropCell m k) k = none := by
  induction m with
  | nil => rfl
  | cons e m ih =>
    simp only [dropCell]
    split
    · exact ih
    · simp [lookupCell, *]

theorem lookupCell_dropCell_ne (m : List (Nat × α)) {k j : Nat} (h : j ≠ k) :
    lookupCell (dropCell m k) j = lookupCell m j := by
  induction m with
  | nil => rfl
  | cons e m ih =>
    simp only [dropCell]
    split
    · subst_vars; simp [lookupCell, h, ih]
    · simp [lookupCell, ih]

theorem mem_putCell {m : List (Nat × α)} {k : Nat} {v : α} {e : Nat × α} (h : e ∈ putCell m k v) :
    e = (k, v) ∨ e ∈ m := by
  induction m with
  | nil => simpa [putCell] using h
  | cons e' m ih =>
    simp only [putCell] at h
    split at h
    · simpa using h
    · split at h
      · rcases List.mem_cons.1 h with h | h
        · exact .inl h
        · exact .inr (List.mem_cons_of_mem _ h)
      · rcases List.mem_cons.1 h with h | h
        · exact .inr (h ▸ List.mem_cons_self)
        · exact (ih h).imp id (List.mem_cons_of_mem _)

theorem mem_dropCell {m : List (Nat × α)} {k : Nat} {e : Nat × α} (h : e ∈ dropCell m k) : e ∈ m := by
  induction m with
  | nil => exact h
  | cons e' m ih =>
    simp only [dropCell] at h
    split at h
    · exact List.mem_cons_of_mem _ (ih h)
    · rcases List.mem_cons.1 h with h | h
      · exact h ▸ List.mem_cons_self
      · exact List.mem_cons_of_mem _ (ih h)

theorem keysRise_cons {e : Nat × α} {m : List (Nat × α)} :
    keysRise (e :: m) = true ↔ (∀ e' ∈ m, e.1 < e'.1) ∧ keysRise m = true := by
  simp [keysRise]

theorem keysRise_putCell {m : List (Nat × α)} (k : Nat) (v : α) (h : keysRise m = true) :
    keysRise (putCell m k v) = true := by
  induction m with
  | nil => rfl
  | cons e m ih =>
    obtain ⟨h1, h2⟩ := keysRise_cons.1 h
    simp only [putCell]
    split
    · refine keysRise_cons.2 ⟨fun e' he' => ?_, h⟩
      rcases List.mem_cons.1 he' with he' | he'
      · subst he'; assumption
      · exact Nat.lt_trans ‹_› (h1 e' he')
    · split
      · refine keysRise_cons.2 ⟨fun e' he' => ?_, h2⟩
        have := h1 e' he'
        simp only
        omega
      · refine keysRise_cons.2 ⟨fun e' he' => ?_, ih h2⟩
        rcases mem_putCell he' with he' | he'
        · subst he'; simp only; omega
        · exact h1 e' he'

theorem keysRise_dropCell {m : List (Nat × α)} (k : Nat) (h : keysRise m = true) : keysRise (dropCell m k) = true := by
  induction m with
  | nil => rfl
  | cons e m ih =>
    obtain ⟨h1, h2⟩ := keysRise_cons.1 h
    simp only [dropCell]
    split
    · exact ih h2
    · exact keysRise_cons.2 ⟨fun e' he' => h1 e' (mem_dropCell he'), ih h2⟩

/-! ## Tables -/

@[simp] theorem Table.get_nil (d : α) (k : Nat) : Table.get d [] k = d := rfl

@[simp] theorem Table.get_set_same [DecidableEq α] (d : α) (m : List (Nat × α)) (k : Nat) (v : α) :
    Table.get d (Table.set d m k v) k = v := by
  unfold Table.get Table.set
  split
  · simp [lookupCell_dropCell_same, *]
  · simp [lookupCell_putCell_same]

theorem Table.get_set_ne [DecidableEq α] (d : α) (m : List (Nat × α)) {k j : Nat} (v : α) (h : j ≠ k) :
    Table.get d (Table.set d m k v) j = Table.get d m j := by
  unfold Table.get Table.set
  split
  · rw [lookupCell_dropCell_ne m h]
  · rw [lookupCell_putCell_ne m v h]

/-- Reading a table after a write, at any key. -/
theorem Table.get_set [DecidableEq α] (d : α) (m : List (Nat × α)) (k j : Nat) (v : α) :
    Table.get d (Table.set d m k v) j = if j = k then v else Table.get d m j := by
  split
  · subst_vars; simp
  · exact Table.get_set_ne d m v ‹_›

theorem Table.wf_nil [DecidableEq α] (d : α) : Table.wf d [] = true := rfl

/-- A write keeps the canonical form of a table. -/
theorem Table.wf_set [DecidableEq α] {d : α} {m : List (Nat × α)} (k : Nat) (v : α) (h : Table.wf d m = true) :
    Table.wf d (Table.set d m k v) = true := by
  simp only [Table.wf, Bool.and_eq_true, List.all_eq_true, decide_eq_true_eq] at h ⊢
  unfold Table.set
  split
  · exact ⟨keysRise_dropCell k h.1, fun e he => h.2 e (mem_dropCell he)⟩
  · refine ⟨keysRise_putCell k v h.1, fun e he => ?_⟩
    rcases mem_putCell he with he | he
    · subst he; assumption
    · exact h.2 e he

theorem lookupCell_none_of_lt {l : List (Nat × α)} {k : Nat} (h : ∀ e ∈ l, k < e.1) : lookupCell l k = none := by
  induction l with
  | nil => rfl
  | cons e l ih =>
    have := h e List.mem_cons_self
    simp only [lookupCell]
    rw [if_neg (by omega)]
    exact ih fun e' he' => h e' (List.mem_cons_of_mem _ he')

theorem Table.get_cons (d : α) (e : Nat × α) (m : List (Nat × α)) (k : Nat) :
    Table.get d (e :: m) k = if k = e.1 then e.2 else Table.get d m k := by
  unfold Table.get
  simp only [lookupCell]
  split <;> rfl

/-- A table reads as the default below its first key. -/
theorem Table.get_of_lt (d : α) {m : List (Nat × α)} {k : Nat} (h : ∀ e ∈ m, k < e.1) : Table.get d m k = d := by
  simp [Table.get, lookupCell_none_of_lt h]

theorem Table.wf_cons [DecidableEq α] {d : α} {e : Nat × α} {m : List (Nat × α)} :
    Table.wf d (e :: m) = true ↔ (∀ e' ∈ m, e.1 < e'.1) ∧ e.2 ≠ d ∧ Table.wf d m = true := by
  simp only [Table.wf, Bool.and_eq_true, keysRise_cons, List.all_cons, decide_eq_true_eq]
  tauto

/-- In canonical form, equal readings are equal tables. -/
theorem Table.ext [DecidableEq α] {d : α} {m n : List (Nat × α)} (hm : Table.wf d m = true) (hn : Table.wf d n = true)
    (h : ∀ k, Table.get d m k = Table.get d n k) : m = n := by
  induction m generalizing n with
  | nil =>
    cases n with
    | nil => rfl
    | cons e n =>
      have := h e.1
      rw [Table.get_cons, if_pos rfl] at this
      exact absurd this.symm (Table.wf_cons.1 hn).2.1
  | cons e m ih =>
    obtain ⟨hm1, hmd, hm2⟩ := Table.wf_cons.1 hm
    cases n with
    | nil =>
      have := h e.1
      rw [Table.get_cons, if_pos rfl] at this
      exact absurd this hmd
    | cons e' n =>
      obtain ⟨hn1, hnd, hn2⟩ := Table.wf_cons.1 hn
      have key : e.1 = e'.1 := by
        rcases Nat.lt_trichotomy e.1 e'.1 with hlt | heq | hgt
        · have := h e.1
          rw [Table.get_cons, if_pos rfl, Table.get_cons, if_neg (by omega),
            Table.get_of_lt d fun x hx => Nat.lt_trans hlt (hn1 x hx)] at this
          exact absurd this hmd
        · exact heq
        · have := h e'.1
          rw [Table.get_cons, if_neg (by omega), Table.get_cons, if_pos rfl,
            Table.get_of_lt d fun x hx => Nat.lt_trans hgt (hm1 x hx)] at this
          exact absurd this.symm hnd
      have val : e.2 = e'.2 := by
        have := h e.1
        rwa [Table.get_cons, if_pos rfl, Table.get_cons, if_pos key] at this
      have tail : m = n := ih hm2 hn2 fun k => by
        by_cases hk : k = e.1
        · rw [Table.get_of_lt d fun x hx => hk ▸ hm1 x hx, Table.get_of_lt d fun x hx => hk ▸ key ▸ hn1 x hx]
        · have := h k
          rwa [Table.get_cons, if_neg hk, Table.get_cons, if_neg (key ▸ hk)] at this
      rw [tail, Prod.ext key val]

/-! ## Receive buffers -/

/-- Reading a buffer after a write, at any address. -/
theorem Memory.read_write (m : List Host.Cell) (a j : Nat) (b : Byte) :
    Memory.read (Memory.write m a b) j = if j = a then some b else Memory.read m j := by
  unfold Memory.read Memory.write
  split
  · rename_i h; subst h; exact lookupCell_putCell_same m _ b
  · exact lookupCell_putCell_ne m b ‹_›

/-- A write keeps the canonical form of a buffer. -/
theorem Memory.wf_write {m : List Host.Cell} (a : Nat) (b : Byte) (h : Memory.wf m = true) :
    Memory.wf (Memory.write m a b) = true := keysRise_putCell a b h

/-- Reading after a write of several bytes: inside the range the byte written, outside as before. -/
theorem Memory.read_writeBytes (m : List Host.Cell) (a : Nat) (bs : List Byte) (j : Nat) :
    Memory.read (Memory.writeBytes m a bs) j =
      if a ≤ j ∧ j < a + bs.length then bs[j - a]? else Memory.read m j := by
  induction bs generalizing m a with
  | nil =>
    rw [if_neg (by simp only [List.length_nil]; omega)]
    rfl
  | cons b bs ih =>
    simp only [Memory.writeBytes, ih, Memory.read_write, List.length_cons]
    by_cases h : j = a
    · subst h
      rw [if_neg (by omega), if_pos rfl, if_pos (by omega)]
      simp
    · by_cases h' : a + 1 ≤ j ∧ j < a + 1 + bs.length
      · rw [if_pos h', if_pos (by omega)]
        have : j - a = (j - (a + 1)) + 1 := by omega
        rw [this, List.getElem?_cons_succ]
      · rw [if_neg h', if_neg h, if_neg (by omega)]

/-- A write of several bytes keeps the canonical form of a buffer. -/
theorem Memory.wf_writeBytes {m : List Host.Cell} (a : Nat) (bs : List Byte) (h : Memory.wf m = true) :
    Memory.wf (Memory.writeBytes m a bs) = true := by
  induction bs generalizing m a with
  | nil => exact h
  | cons b bs ih => exact ih (a + 1) (Memory.wf_write a b h)

/-- A read of several bytes answers iff every byte holds a value, and then byte by byte. -/
theorem Memory.readBytes_eq_some {m : List Host.Cell} {a n : Nat} {d : List Byte} :
    Memory.readBytes m a n = some d ↔ d.length = n ∧ ∀ i < n, Memory.read m (a + i) = d[i]? := by
  induction n generalizing a d with
  | zero => cases d <;> simp [Memory.readBytes]
  | succ n ih =>
    simp only [Memory.readBytes]
    constructor
    · intro h
      split at h
      · rename_i b bs hb hbs
        cases h
        obtain ⟨hl, hr⟩ := ih.1 hbs
        refine ⟨by simp [hl], fun i hi => ?_⟩
        cases i with
        | zero => simpa using hb
        | succ i =>
          have := hr i (by omega)
          simpa [Nat.add_assoc, Nat.add_comm 1 i] using this
      · cases h
    · rintro ⟨hl, hr⟩
      cases d with
      | nil => simp at hl
      | cons b bs =>
        have hb : Memory.read m a = some b := by simpa using hr 0 (by omega)
        have hbs : Memory.readBytes m (a + 1) n = some bs := ih.2 ⟨by simpa using hl, fun i hi => by
          have := hr (i + 1) (by omega)
          simpa [Nat.add_assoc, Nat.add_comm 1 i] using this⟩
        rw [hb, hbs]

end Sys2Proof.Machine
end

