-- ==== Sys2Proof/Laws/State.lean ====
section
/-! SUPPORT. One lemma for each field and each update of State, and the readings of State after a write. -/

namespace Sys2Proof.Machine

/-! ## `State.begin` -/

@[simp] theorem State.begin_cfg (s : State) : (s.begin).cfg = s.cfg := rfl
@[simp] theorem State.begin_pipes (s : State) : (s.begin).pipes = s.pipes := rfl
@[simp] theorem State.begin_locks (s : State) : (s.begin).locks = s.locks := rfl
@[simp] theorem State.begin_orient (s : State) : (s.begin).orient = s.orient := rfl
@[simp] theorem State.begin_clOrient (s : State) : (s.begin).clOrient = s.clOrient := rfl
@[simp] theorem State.begin_pending (s : State) : (s.begin).pending = s.pending := rfl
@[simp] theorem State.begin_pipe (s : State) (c' : Nat) : (s.begin).pipe c' = s.pipe c' := rfl
@[simp] theorem State.begin_lock (s : State) (i' : Nat) : (s.begin).lock i' = s.lock i' := rfl
@[simp] theorem State.begin_orientOf (s : State) (i' : Nat) : (s.begin).orientOf i' = s.orientOf i' := rfl
@[simp] theorem State.begin_clOrientOf (s : State) (k' : Nat) : (s.begin).clOrientOf k' = s.clOrientOf k' := rfl
@[simp] theorem State.begin_hasPipe (s : State) (c' : PipeId) : (s.begin).hasPipe c' = s.hasPipe c' := rfl
@[simp] theorem State.begin_hasItem (s : State) (i' : BitVec 16) : (s.begin).hasItem i' = s.hasItem i' := rfl

/-! ## `State.emit` -/

@[simp] theorem State.emit_cfg (s : State) (e : Event) : (s.emit e).cfg = s.cfg := rfl
@[simp] theorem State.emit_pipes (s : State) (e : Event) : (s.emit e).pipes = s.pipes := rfl
@[simp] theorem State.emit_locks (s : State) (e : Event) : (s.emit e).locks = s.locks := rfl
@[simp] theorem State.emit_orient (s : State) (e : Event) : (s.emit e).orient = s.orient := rfl
@[simp] theorem State.emit_clOrient (s : State) (e : Event) : (s.emit e).clOrient = s.clOrient := rfl
@[simp] theorem State.emit_pending (s : State) (e : Event) : (s.emit e).pending = s.pending := rfl
@[simp] theorem State.emit_pipe (s : State) (e : Event) (c' : Nat) : (s.emit e).pipe c' = s.pipe c' := rfl
@[simp] theorem State.emit_lock (s : State) (e : Event) (i' : Nat) : (s.emit e).lock i' = s.lock i' := rfl
@[simp] theorem State.emit_orientOf (s : State) (e : Event) (i' : Nat) : (s.emit e).orientOf i' = s.orientOf i' := rfl
@[simp] theorem State.emit_clOrientOf (s : State) (e : Event) (k' : Nat) : (s.emit e).clOrientOf k' = s.clOrientOf k' := rfl
@[simp] theorem State.emit_hasPipe (s : State) (e : Event) (c' : PipeId) : (s.emit e).hasPipe c' = s.hasPipe c' := rfl
@[simp] theorem State.emit_hasItem (s : State) (e : Event) (i' : BitVec 16) : (s.emit e).hasItem i' = s.hasItem i' := rfl

/-! ## `State.badRequest` -/

@[simp] theorem State.badRequest_cfg (s : State) (p : Port) : (s.badRequest p).cfg = s.cfg := rfl
@[simp] theorem State.badRequest_pipes (s : State) (p : Port) : (s.badRequest p).pipes = s.pipes := rfl
@[simp] theorem State.badRequest_locks (s : State) (p : Port) : (s.badRequest p).locks = s.locks := rfl
@[simp] theorem State.badRequest_orient (s : State) (p : Port) : (s.badRequest p).orient = s.orient := rfl
@[simp] theorem State.badRequest_clOrient (s : State) (p : Port) : (s.badRequest p).clOrient = s.clOrient := rfl
@[simp] theorem State.badRequest_pending (s : State) (p : Port) : (s.badRequest p).pending = s.pending := rfl
@[simp] theorem State.badRequest_pipe (s : State) (p : Port) (c' : Nat) : (s.badRequest p).pipe c' = s.pipe c' := rfl
@[simp] theorem State.badRequest_lock (s : State) (p : Port) (i' : Nat) : (s.badRequest p).lock i' = s.lock i' := rfl
@[simp] theorem State.badRequest_orientOf (s : State) (p : Port) (i' : Nat) : (s.badRequest p).orientOf i' = s.orientOf i' := rfl
@[simp] theorem State.badRequest_clOrientOf (s : State) (p : Port) (k' : Nat) : (s.badRequest p).clOrientOf k' = s.clOrientOf k' := rfl
@[simp] theorem State.badRequest_hasPipe (s : State) (p : Port) (c' : PipeId) : (s.badRequest p).hasPipe c' = s.hasPipe c' := rfl
@[simp] theorem State.badRequest_hasItem (s : State) (p : Port) (i' : BitVec 16) : (s.badRequest p).hasItem i' = s.hasItem i' := rfl

/-! ## `State.setPipe` -/

@[simp] theorem State.setPipe_cfg (s : State) (c : Nat) (p : Pipe) : (s.setPipe c p).cfg = s.cfg := rfl
@[simp] theorem State.setPipe_locks (s : State) (c : Nat) (p : Pipe) : (s.setPipe c p).locks = s.locks := rfl
@[simp] theorem State.setPipe_orient (s : State) (c : Nat) (p : Pipe) : (s.setPipe c p).orient = s.orient := rfl
@[simp] theorem State.setPipe_clOrient (s : State) (c : Nat) (p : Pipe) : (s.setPipe c p).clOrient = s.clOrient := rfl
@[simp] theorem State.setPipe_pending (s : State) (c : Nat) (p : Pipe) : (s.setPipe c p).pending = s.pending := rfl
@[simp] theorem State.setPipe_out (s : State) (c : Nat) (p : Pipe) : (s.setPipe c p).out = s.out := rfl
@[simp] theorem State.setPipe_lock (s : State) (c : Nat) (p : Pipe) (i' : Nat) : (s.setPipe c p).lock i' = s.lock i' := rfl
@[simp] theorem State.setPipe_orientOf (s : State) (c : Nat) (p : Pipe) (i' : Nat) : (s.setPipe c p).orientOf i' = s.orientOf i' := rfl
@[simp] theorem State.setPipe_clOrientOf (s : State) (c : Nat) (p : Pipe) (k' : Nat) : (s.setPipe c p).clOrientOf k' = s.clOrientOf k' := rfl
@[simp] theorem State.setPipe_hasPipe (s : State) (c : Nat) (p : Pipe) (c' : PipeId) : (s.setPipe c p).hasPipe c' = s.hasPipe c' := rfl
@[simp] theorem State.setPipe_hasItem (s : State) (c : Nat) (p : Pipe) (i' : BitVec 16) : (s.setPipe c p).hasItem i' = s.hasItem i' := rfl

/-! ## `State.setLock` -/

@[simp] theorem State.setLock_cfg (s : State) (i : Nat) (e : LockEntry) : (s.setLock i e).cfg = s.cfg := rfl
@[simp] theorem State.setLock_pipes (s : State) (i : Nat) (e : LockEntry) : (s.setLock i e).pipes = s.pipes := rfl
@[simp] theorem State.setLock_orient (s : State) (i : Nat) (e : LockEntry) : (s.setLock i e).orient = s.orient := rfl
@[simp] theorem State.setLock_clOrient (s : State) (i : Nat) (e : LockEntry) : (s.setLock i e).clOrient = s.clOrient := rfl
@[simp] theorem State.setLock_pending (s : State) (i : Nat) (e : LockEntry) : (s.setLock i e).pending = s.pending := rfl
@[simp] theorem State.setLock_out (s : State) (i : Nat) (e : LockEntry) : (s.setLock i e).out = s.out := rfl
@[simp] theorem State.setLock_pipe (s : State) (i : Nat) (e : LockEntry) (c' : Nat) : (s.setLock i e).pipe c' = s.pipe c' := rfl
@[simp] theorem State.setLock_orientOf (s : State) (i : Nat) (e : LockEntry) (i' : Nat) : (s.setLock i e).orientOf i' = s.orientOf i' := rfl
@[simp] theorem State.setLock_clOrientOf (s : State) (i : Nat) (e : LockEntry) (k' : Nat) : (s.setLock i e).clOrientOf k' = s.clOrientOf k' := rfl
@[simp] theorem State.setLock_hasPipe (s : State) (i : Nat) (e : LockEntry) (c' : PipeId) : (s.setLock i e).hasPipe c' = s.hasPipe c' := rfl
@[simp] theorem State.setLock_hasItem (s : State) (i : Nat) (e : LockEntry) (i' : BitVec 16) : (s.setLock i e).hasItem i' = s.hasItem i' := rfl

/-! ## `State.applyPipe` -/

@[simp] theorem State.applyPipe_cfg (s : State) (c : PipeId) (e : PipeEffect) : (s.applyPipe c e).cfg = s.cfg := rfl
@[simp] theorem State.applyPipe_locks (s : State) (c : PipeId) (e : PipeEffect) : (s.applyPipe c e).locks = s.locks := rfl
@[simp] theorem State.applyPipe_orient (s : State) (c : PipeId) (e : PipeEffect) : (s.applyPipe c e).orient = s.orient := rfl
@[simp] theorem State.applyPipe_clOrient (s : State) (c : PipeId) (e : PipeEffect) : (s.applyPipe c e).clOrient = s.clOrient := rfl
@[simp] theorem State.applyPipe_pending (s : State) (c : PipeId) (e : PipeEffect) : (s.applyPipe c e).pending = s.pending := rfl
@[simp] theorem State.applyPipe_lock (s : State) (c : PipeId) (e : PipeEffect) (i' : Nat) : (s.applyPipe c e).lock i' = s.lock i' := rfl
@[simp] theorem State.applyPipe_orientOf (s : State) (c : PipeId) (e : PipeEffect) (i' : Nat) : (s.applyPipe c e).orientOf i' = s.orientOf i' := rfl
@[simp] theorem State.applyPipe_clOrientOf (s : State) (c : PipeId) (e : PipeEffect) (k' : Nat) : (s.applyPipe c e).clOrientOf k' = s.clOrientOf k' := rfl
@[simp] theorem State.applyPipe_hasPipe (s : State) (c : PipeId) (e : PipeEffect) (c' : PipeId) : (s.applyPipe c e).hasPipe c' = s.hasPipe c' := rfl
@[simp] theorem State.applyPipe_hasItem (s : State) (c : PipeId) (e : PipeEffect) (i' : BitVec 16) : (s.applyPipe c e).hasItem i' = s.hasItem i' := rfl

/-! ## `State.routed` -/

@[simp] theorem State.routed_cfg (s : State) (c : PipeId) (h : BitVec 5) (f : Frame) : (s.routed c h f).cfg = s.cfg := rfl
@[simp] theorem State.routed_pipes (s : State) (c : PipeId) (h : BitVec 5) (f : Frame) : (s.routed c h f).pipes = s.pipes := rfl
@[simp] theorem State.routed_locks (s : State) (c : PipeId) (h : BitVec 5) (f : Frame) : (s.routed c h f).locks = s.locks := rfl
@[simp] theorem State.routed_orient (s : State) (c : PipeId) (h : BitVec 5) (f : Frame) : (s.routed c h f).orient = s.orient := rfl
@[simp] theorem State.routed_clOrient (s : State) (c : PipeId) (h : BitVec 5) (f : Frame) : (s.routed c h f).clOrient = s.clOrient := rfl
@[simp] theorem State.routed_pending (s : State) (c : PipeId) (h : BitVec 5) (f : Frame) : (s.routed c h f).pending = s.pending := rfl
@[simp] theorem State.routed_pipe (s : State) (c : PipeId) (h : BitVec 5) (f : Frame) (c' : Nat) : (s.routed c h f).pipe c' = s.pipe c' := rfl
@[simp] theorem State.routed_lock (s : State) (c : PipeId) (h : BitVec 5) (f : Frame) (i' : Nat) : (s.routed c h f).lock i' = s.lock i' := rfl
@[simp] theorem State.routed_orientOf (s : State) (c : PipeId) (h : BitVec 5) (f : Frame) (i' : Nat) : (s.routed c h f).orientOf i' = s.orientOf i' := rfl
@[simp] theorem State.routed_clOrientOf (s : State) (c : PipeId) (h : BitVec 5) (f : Frame) (k' : Nat) : (s.routed c h f).clOrientOf k' = s.clOrientOf k' := rfl
@[simp] theorem State.routed_hasPipe (s : State) (c : PipeId) (h : BitVec 5) (f : Frame) (c' : PipeId) : (s.routed c h f).hasPipe c' = s.hasPipe c' := rfl
@[simp] theorem State.routed_hasItem (s : State) (c : PipeId) (h : BitVec 5) (f : Frame) (i' : BitVec 16) : (s.routed c h f).hasItem i' = s.hasItem i' := rfl

/-! ## `State.respondLock` -/

@[simp] theorem State.respondLock_cfg (s : State) (ok : Bool) : (s.respondLock ok).cfg = s.cfg := rfl
@[simp] theorem State.respondLock_pipes (s : State) (ok : Bool) : (s.respondLock ok).pipes = s.pipes := rfl
@[simp] theorem State.respondLock_locks (s : State) (ok : Bool) : (s.respondLock ok).locks = s.locks := rfl
@[simp] theorem State.respondLock_orient (s : State) (ok : Bool) : (s.respondLock ok).orient = s.orient := rfl
@[simp] theorem State.respondLock_clOrient (s : State) (ok : Bool) : (s.respondLock ok).clOrient = s.clOrient := rfl
@[simp] theorem State.respondLock_pending (s : State) (ok : Bool) : (s.respondLock ok).pending = s.pending := rfl
@[simp] theorem State.respondLock_pipe (s : State) (ok : Bool) (c' : Nat) : (s.respondLock ok).pipe c' = s.pipe c' := rfl
@[simp] theorem State.respondLock_lock (s : State) (ok : Bool) (i' : Nat) : (s.respondLock ok).lock i' = s.lock i' := rfl
@[simp] theorem State.respondLock_orientOf (s : State) (ok : Bool) (i' : Nat) : (s.respondLock ok).orientOf i' = s.orientOf i' := rfl
@[simp] theorem State.respondLock_clOrientOf (s : State) (ok : Bool) (k' : Nat) : (s.respondLock ok).clOrientOf k' = s.clOrientOf k' := rfl
@[simp] theorem State.respondLock_hasPipe (s : State) (ok : Bool) (c' : PipeId) : (s.respondLock ok).hasPipe c' = s.hasPipe c' := rfl
@[simp] theorem State.respondLock_hasItem (s : State) (ok : Bool) (i' : BitVec 16) : (s.respondLock ok).hasItem i' = s.hasItem i' := rfl

/-! ## `State.respondInUse` -/

@[simp] theorem State.respondInUse_cfg (s : State) (u : Bool) : (s.respondInUse u).cfg = s.cfg := rfl
@[simp] theorem State.respondInUse_pipes (s : State) (u : Bool) : (s.respondInUse u).pipes = s.pipes := rfl
@[simp] theorem State.respondInUse_locks (s : State) (u : Bool) : (s.respondInUse u).locks = s.locks := rfl
@[simp] theorem State.respondInUse_orient (s : State) (u : Bool) : (s.respondInUse u).orient = s.orient := rfl
@[simp] theorem State.respondInUse_clOrient (s : State) (u : Bool) : (s.respondInUse u).clOrient = s.clOrient := rfl
@[simp] theorem State.respondInUse_pending (s : State) (u : Bool) : (s.respondInUse u).pending = s.pending := rfl
@[simp] theorem State.respondInUse_pipe (s : State) (u : Bool) (c' : Nat) : (s.respondInUse u).pipe c' = s.pipe c' := rfl
@[simp] theorem State.respondInUse_lock (s : State) (u : Bool) (i' : Nat) : (s.respondInUse u).lock i' = s.lock i' := rfl
@[simp] theorem State.respondInUse_orientOf (s : State) (u : Bool) (i' : Nat) : (s.respondInUse u).orientOf i' = s.orientOf i' := rfl
@[simp] theorem State.respondInUse_clOrientOf (s : State) (u : Bool) (k' : Nat) : (s.respondInUse u).clOrientOf k' = s.clOrientOf k' := rfl
@[simp] theorem State.respondInUse_hasPipe (s : State) (u : Bool) (c' : PipeId) : (s.respondInUse u).hasPipe c' = s.hasPipe c' := rfl
@[simp] theorem State.respondInUse_hasItem (s : State) (u : Bool) (i' : BitVec 16) : (s.respondInUse u).hasItem i' = s.hasItem i' := rfl

/-! ## `State.respondCluster` -/

@[simp] theorem State.respondCluster_cfg (s : State) (ok : Bool) : (s.respondCluster ok).cfg = s.cfg := rfl
@[simp] theorem State.respondCluster_pipes (s : State) (ok : Bool) : (s.respondCluster ok).pipes = s.pipes := rfl
@[simp] theorem State.respondCluster_locks (s : State) (ok : Bool) : (s.respondCluster ok).locks = s.locks := rfl
@[simp] theorem State.respondCluster_orient (s : State) (ok : Bool) : (s.respondCluster ok).orient = s.orient := rfl
@[simp] theorem State.respondCluster_clOrient (s : State) (ok : Bool) : (s.respondCluster ok).clOrient = s.clOrient := rfl
@[simp] theorem State.respondCluster_pending (s : State) (ok : Bool) : (s.respondCluster ok).pending = s.pending := rfl
@[simp] theorem State.respondCluster_pipe (s : State) (ok : Bool) (c' : Nat) : (s.respondCluster ok).pipe c' = s.pipe c' := rfl
@[simp] theorem State.respondCluster_lock (s : State) (ok : Bool) (i' : Nat) : (s.respondCluster ok).lock i' = s.lock i' := rfl
@[simp] theorem State.respondCluster_orientOf (s : State) (ok : Bool) (i' : Nat) : (s.respondCluster ok).orientOf i' = s.orientOf i' := rfl
@[simp] theorem State.respondCluster_clOrientOf (s : State) (ok : Bool) (k' : Nat) : (s.respondCluster ok).clOrientOf k' = s.clOrientOf k' := rfl
@[simp] theorem State.respondCluster_hasPipe (s : State) (ok : Bool) (c' : PipeId) : (s.respondCluster ok).hasPipe c' = s.hasPipe c' := rfl
@[simp] theorem State.respondCluster_hasItem (s : State) (ok : Bool) (i' : BitVec 16) : (s.respondCluster ok).hasItem i' = s.hasItem i' := rfl

/-! ## `State.orientChanged` -/

@[simp] theorem State.orientChanged_cfg (s : State) (k : Nat) (o : Bool) : (s.orientChanged k o).cfg = s.cfg := rfl
@[simp] theorem State.orientChanged_pipes (s : State) (k : Nat) (o : Bool) : (s.orientChanged k o).pipes = s.pipes := rfl
@[simp] theorem State.orientChanged_locks (s : State) (k : Nat) (o : Bool) : (s.orientChanged k o).locks = s.locks := rfl
@[simp] theorem State.orientChanged_pending (s : State) (k : Nat) (o : Bool) : (s.orientChanged k o).pending = s.pending := rfl
@[simp] theorem State.orientChanged_out (s : State) (k : Nat) (o : Bool) : (s.orientChanged k o).out = s.out := rfl
@[simp] theorem State.orientChanged_pipe (s : State) (k : Nat) (o : Bool) (c' : Nat) : (s.orientChanged k o).pipe c' = s.pipe c' := rfl
@[simp] theorem State.orientChanged_lock (s : State) (k : Nat) (o : Bool) (i' : Nat) : (s.orientChanged k o).lock i' = s.lock i' := rfl
@[simp] theorem State.orientChanged_hasPipe (s : State) (k : Nat) (o : Bool) (c' : PipeId) : (s.orientChanged k o).hasPipe c' = s.hasPipe c' := rfl
@[simp] theorem State.orientChanged_hasItem (s : State) (k : Nat) (o : Bool) (i' : BitVec 16) : (s.orientChanged k o).hasItem i' = s.hasItem i' := rfl

/-! ## `State.resetBlock` -/

@[simp] theorem State.resetBlock_cfg (s : State) : (s.resetBlock).cfg = s.cfg := rfl
@[simp] theorem State.resetBlock_pending (s : State) : (s.resetBlock).pending = s.pending := rfl
@[simp] theorem State.resetBlock_out (s : State) : (s.resetBlock).out = s.out := rfl
@[simp] theorem State.resetBlock_hasPipe (s : State) (c' : PipeId) : (s.resetBlock).hasPipe c' = s.hasPipe c' := rfl
@[simp] theorem State.resetBlock_hasItem (s : State) (i' : BitVec 16) : (s.resetBlock).hasItem i' = s.hasItem i' := rfl

/-! ## Outputs -/

@[simp] theorem State.begin_out (s : State) : s.begin.out = .empty := rfl
@[simp] theorem State.begin_begin (s : State) : s.begin.begin = s.begin := rfl
@[simp] theorem State.emit_events (s : State) (e : Event) : (s.emit e).out.events = s.out.events ++ [e] := rfl
@[simp] theorem State.emit_handler (s : State) (e : Event) : (s.emit e).out.handler = s.out.handler := rfl
@[simp] theorem State.emit_lockResponse (s : State) (e : Event) :
    (s.emit e).out.lockResponse = s.out.lockResponse := rfl
@[simp] theorem State.emit_clusterOk (s : State) (e : Event) : (s.emit e).out.clusterOk = s.out.clusterOk := rfl
@[simp] theorem State.badRequest_events (s : State) (p : Port) :
    (s.badRequest p).out.events = s.out.events ++ [.badRequest p] := rfl
@[simp] theorem State.applyPipe_events (s : State) (c : PipeId) (e : PipeEffect) :
    (s.applyPipe c e).out.events = s.out.events ++ e.events := rfl
@[simp] theorem State.applyPipe_request (s : State) (c : PipeId) (e : PipeEffect) :
    (s.applyPipe c e).out.inflateRequest = e.request := rfl
@[simp] theorem State.routed_events (s : State) (c : PipeId) (h : BitVec 5) (f : Frame) :
    (s.routed c h f).out.events = s.out.events ++ [.dispatch c h f.resp] := rfl
@[simp] theorem State.routed_handler (s : State) (c : PipeId) (h : BitVec 5) (f : Frame) :
    (s.routed c h f).out.handler = some (handlerRecord c h f) := rfl
@[simp] theorem Outputs.empty_events : Outputs.empty.events = [] := rfl

/-! ## Readings after a write -/

@[simp] theorem State.setPipe_pipe_same (s : State) (c : Nat) (p : Pipe) : (s.setPipe c p).pipe c = p :=
  Table.get_set_same _ _ _ _

/-- Reading any pipeline after a write. -/
theorem State.setPipe_pipe (s : State) (c c' : Nat) (p : Pipe) :
    (s.setPipe c p).pipe c' = if c' = c then p else s.pipe c' := Table.get_set _ _ _ _ _

@[simp] theorem State.applyPipe_pipe_same (s : State) (c : PipeId) (e : PipeEffect) :
    (s.applyPipe c e).pipe c.toNat = e.pipe := Table.get_set_same _ _ _ _

/-- Reading any pipeline after a stream operation. -/
theorem State.applyPipe_pipe (s : State) (c : PipeId) (c' : Nat) (e : PipeEffect) :
    (s.applyPipe c e).pipe c' = if c' = c.toNat then e.pipe else s.pipe c' := Table.get_set _ _ _ _ _

@[simp] theorem State.setLock_lock_same (s : State) (i : Nat) (e : LockEntry) : (s.setLock i e).lock i = e :=
  Table.get_set_same _ _ _ _

/-- Reading any lock entry after a write. -/
theorem State.setLock_lock (s : State) (i i' : Nat) (e : LockEntry) :
    (s.setLock i e).lock i' = if i' = i then e else s.lock i' := Table.get_set _ _ _ _ _

@[simp] theorem State.resetBlock_pipe (s : State) (c : Nat) : s.resetBlock.pipe c = .reset := rfl

/-- `clear_session` clears every session register and keeps `run` and `alive`. -/
@[simp] theorem Pipe.clearSession_run (p : Pipe) : p.clearSession.run = p.run := rfl
@[simp] theorem Pipe.clearSession_alive (p : Pipe) : p.clearSession.alive = p.alive := rfl
@[simp] theorem Pipe.clearSession_cdsState (p : Pipe) : p.clearSession.cdsState = .idle := rfl
@[simp] theorem Pipe.clearSession_rxCount (p : Pipe) : p.clearSession.rxCount = 0 := rfl
@[simp] theorem Pipe.clearSession_buf (p : Pipe) : p.clearSession.buf = [] := rfl
@[simp] theorem Pipe.clearSession_inflState (p : Pipe) : p.clearSession.inflState = .inflNone := rfl

end Sys2Proof.Machine
end

