-- ==== Sys2Proof/Laws/Ops.lean ====
section
/-! SUPPORT. One lemma for each shared operation: what it can do, said once. The provers cite these instead of unfolding
the operation. -/

namespace Sys2Proof.Machine

open Host (Outcome)

/-! ## The enable condition -/

theorem Pipe.enabled_iff (p : Pipe) :
    p.enabled = true ↔ p.run = true ∧ p.alive = true ∧ p.inflState ≠ .inflPending := by
  simp [Pipe.enabled, and_assoc]

theorem State.hasPipe_iff (s : State) (c : PipeId) : s.hasPipe c = true ↔ c.toNat < s.cfg.nConn := by
  simp [State.hasPipe]

theorem rxGate_enabled {c : PipeId} {s : State} (hc : s.hasPipe c = true) (he : (s.pipe c.toNat).enabled = true)
    (k : State → Outcome State Fault Refusal) : rxGate c s k = k s.begin := by
  simp [rxGate, hc, he]

theorem rxGate_held {c : PipeId} {s : State} (hc : s.hasPipe c = true) (he : (s.pipe c.toNat).enabled = false)
    (k : State → Outcome State Fault Refusal) : rxGate c s k = .next s.begin := by
  simp [rxGate, hc, he]

theorem rxGate_noPipe {c : PipeId} {s : State} (hc : s.hasPipe c = false) (k : State → Outcome State Fault Refusal) :
    rxGate c s k = .next (s.begin.badRequest .rxu) := by
  simp [rxGate, hc]

/-- What a receive transaction can do: run its meaning, nothing, or be refused. -/
theorem rxGate_cases (c : PipeId) (s : State) (k : State → Outcome State Fault Refusal) :
    (s.hasPipe c = true ∧ (s.pipe c.toNat).enabled = true ∧ rxGate c s k = k s.begin) ∨
    (s.hasPipe c = true ∧ (s.pipe c.toNat).enabled = false ∧ rxGate c s k = .next s.begin) ∨
    (s.hasPipe c = false ∧ rxGate c s k = .next (s.begin.badRequest .rxu)) := by
  cases hc : s.hasPipe c
  · exact .inr (.inr ⟨rfl, rxGate_noPipe hc k⟩)
  · cases he : (s.pipe c.toNat).enabled
    · exact .inr (.inl ⟨rfl, rfl, rxGate_held hc he k⟩)
    · exact .inl ⟨rfl, rfl, rxGate_enabled hc he k⟩

/-- If a stream operation on a pipeline answers next, its effect was carried out. -/
theorem State.finishPipe_next {s t : State} {c : PipeId} {r : Except Fault PipeEffect}
    (h : s.finishPipe c r = .next t) : ∃ e, r = .ok e ∧ t = s.applyPipe c e := by
  cases r with
  | error f => cases h
  | ok e => cases h; exact ⟨e, rfl, rfl⟩

/-! ## The receive buffer -/

/-- R63: a read answers iff its range is valid and every byte is held; then byte `i` is the buffer's. -/
theorem memRead_eq_some {p : Pipe} {a n : Nat} {d : List Byte} :
    memRead p a n = some d ↔
      a + n ≤ p.rxCount.toNat ∧ d.length = n ∧ ∀ i < n, Memory.read p.buf (a + i) = d[i]? := by
  unfold memRead
  split <;> simp_all [Memory.readBytes_eq_some]

/-- R67, R73: the consumer reads exactly the ranges of valid bytes of a complete stream. -/
theorem consumerRead_eq_some {p : Pipe} {a n : Nat} {d : List Byte} :
    consumerRead p a n = some d ↔ p.cdsState = .complete ∧ memRead p a n = some d := by
  simp [consumerRead]

/-- R67, R218: the inflater reads exactly the ranges of valid bytes while its request is pending. -/
theorem inflaterRead_eq_some {p : Pipe} {a n : Nat} {d : List Byte} :
    inflaterRead p a n = some d ↔ p.inflState = .inflPending ∧ memRead p a n = some d := by
  simp [inflaterRead]

/-- R62: what the write of a data frame does, if it answers. -/
theorem memWrite8_eq_some {p q : Pipe} {d : BitVec 64} (h : memWrite8 p d = some q) :
    p.rxCount.toNat ≤ p.totalSize.toNat ∧
      q = { p with buf := Memory.writeBytes p.buf p.rxCount.toNat (payloadBytes d), rxCount := p.rxCount + 8 } := by
  unfold memWrite8 at h
  split at h
  · cases h; exact ⟨‹_›, rfl⟩
  · cases h

@[simp] theorem payloadBytes_length (d : BitVec 64) : (payloadBytes d).length = 8 := rfl

/-! ## Taking a transaction -/

/-- The word taken is the first that is not held; every word before it is held and stays. -/
theorem takeFirst_some {s : State} {ws rest : List PortWord} {w : PortWord} (h : takeFirst s ws = some (w, rest)) :
    ∃ before after, ws = before ++ w :: after ∧ rest = before ++ after ∧ (∀ x ∈ before, s.held x = true) ∧
      s.held w = false := by
  induction ws generalizing rest with
  | nil => cases h
  | cons x ws ih =>
    simp only [takeFirst] at h
    by_cases hx : s.held x = true
    · rw [if_pos hx] at h
      split at h
      · cases h
      · rename_i y rest' hr
        cases h
        obtain ⟨b, a, rfl, rfl, hb, hw⟩ := ih hr
        exact ⟨x :: b, a, rfl, rfl, by simpa using ⟨hx, hb⟩, hw⟩
    · rw [if_neg hx] at h
      cases h
      exact ⟨[], _, rfl, rfl, by simp, by simpa using hx⟩

/-- Nothing is taken iff every word is held. -/
theorem takeFirst_none {s : State} {ws : List PortWord} : takeFirst s ws = none ↔ ∀ x ∈ ws, s.held x = true := by
  induction ws with
  | nil => simp [takeFirst]
  | cons x ws ih =>
    simp only [takeFirst, List.forall_mem_cons]
    split
    · split <;> simp_all
    · simp_all

/-- What a step can do: stay, carry out the instruction it takes, or refuse a word that is none. -/
theorem step_cases (s : State) :
    ((∀ w ∈ s.pending, s.held w = true) ∧ step s = .next s.begin) ∨
    (∃ before w after, s.pending = before ++ w :: after ∧ (∀ x ∈ before, s.held x = true) ∧ s.held w = false ∧
      ((∃ i, decode s.cfg w = .ok i ∧ step s = exec i { s with pending := before ++ after }) ∨
       (∃ r, decode s.cfg w = .error r ∧ step s = .next (State.rejectWord { s with pending := before ++ after } r)))) := by
  unfold step State.takeWord
  cases ht : takeFirst s s.pending with
  | none => exact .inl ⟨takeFirst_none.1 ht, rfl⟩
  | some wr =>
    obtain ⟨w, rest⟩ := wr
    obtain ⟨b, a, h1, rfl, h3, h4⟩ := takeFirst_some ht
    refine .inr ⟨b, w, a, h1, h3, h4, ?_⟩
    cases hd : decode s.cfg w with
    | ok i => exact .inl ⟨i, rfl, by simp [hd]⟩
    | error r => exact .inr ⟨r, rfl, by simp [hd]⟩

/-! ## Stream operations -/

@[simp] theorem announce_run (cfg : Config) (c : PipeId) (hash : BitVec 16) (total : BitVec 32) (crc : BitVec 16)
    (flag : Option Byte) (p : Pipe) : (announce cfg c hash total crc flag p).pipe.run = p.run := by
  unfold announce; split <;> rfl

@[simp] theorem announce_alive (cfg : Config) (c : PipeId) (hash : BitVec 16) (total : BitVec 32) (crc : BitVec 16)
    (flag : Option Byte) (p : Pipe) : (announce cfg c hash total crc flag p).pipe.alive = p.alive := by
  unfold announce; split <;> rfl

/-- R216 to R218: what the look at the first bytes can do. -/
theorem detectCompressed_ok {c : PipeId} {p : Pipe} {e : PipeEffect} (h : detectCompressed c p = .ok e) :
    (e = storedStream c p ∧ (p.totalSize.toNat = 0 ∨ ∃ b, memRead p 0 1 = some [b] ∧ b ≠ 0#8)) ∨
    (1 ≤ p.totalSize.toNat ∧ p.totalSize.toNat < 4 ∧ memRead p 0 1 = some [0#8] ∧
      e = ⟨{ p with compressed := true, inflState := .inflErr }, [.decompressError c .shortPrefix], none⟩) ∨
    (4 ≤ p.totalSize.toNat ∧ memRead p 0 1 = some [0#8] ∧ ∃ b0 b1 b2 b3, memRead p 0 4 = some [b0, b1, b2, b3] ∧
      e = ⟨{ p with compressed := true, inflSize := be32 b0 b1 b2 b3, inflState := .inflPending },
        [.inflateStart c 4 (p.totalSize - 4) (be32 b0 b1 b2 b3)],
        some ⟨c, 4, p.totalSize - 4, be32 b0 b1 b2 b3⟩⟩) := by
  unfold detectCompressed at h
  by_cases h1 : 1 ≤ p.totalSize.toNat
  · rw [if_pos h1] at h
    split at h
    · rename_i b hb
      by_cases h0 : b = 0#8
      · subst h0
        rw [if_pos rfl] at h
        by_cases h4 : p.totalSize.toNat < 4
        · rw [if_pos h4] at h
          cases h
          exact .inr (.inl ⟨h1, h4, hb, rfl⟩)
        · rw [if_neg h4] at h
          unfold startInflate at h
          split at h
          · rename_i b0 b1 b2 b3 hr
            cases h
            exact .inr (.inr ⟨by omega, hb, b0, b1, b2, b3, hr, rfl⟩)
          · cases h
      · rw [if_neg h0] at h
        cases h
        exact .inl ⟨rfl, .inr ⟨b, hb, h0⟩⟩
    · cases h
  · rw [if_neg h1] at h
    cases h
    exact .inl ⟨rfl, .inl (by omega)⟩

/-- R183: what a completion can do. -/
theorem complete_ok {c : PipeId} {p : Pipe} {e : PipeEffect} (h : complete c p = .ok e) :
    ∃ d, memRead p 0 p.totalSize.toNat = some d ∧
      ((crc16 d = p.crcAnn ∧ detectCompressed c { p with crcCalc := crc16 d, cdsState := .complete } = .ok e) ∨
       (crc16 d ≠ p.crcAnn ∧ e = crcMismatch c { p with crcCalc := crc16 d })) := by
  unfold complete at h
  split at h
  · cases h
  · rename_i d hd
    refine ⟨d, hd, ?_⟩
    by_cases hc : crc16 d = p.crcAnn
    · exact .inl ⟨hc, (if_pos hc).symm.trans h⟩
    · have := (if_neg hc).symm.trans h
      cases this
      exact .inr ⟨hc, rfl⟩

/-- R178: what an accepted data frame can do after its bytes are stored. -/
theorem appendData_ok {c : PipeId} {p : Pipe} {e : PipeEffect} (h : appendData c p = .ok e) :
    (p.rxCount.toNat < p.totalSize.toNat ∧ e = ⟨p, [.cdsData c p.rxCount], none⟩) ∨
    (p.totalSize.toNat ≤ p.rxCount.toNat ∧ ∃ r, complete c p = .ok r ∧
      e = { r with events := .cdsData c p.rxCount :: r.events }) := by
  unfold appendData at h
  by_cases hle : p.totalSize.toNat ≤ p.rxCount.toNat
  · simp only [if_pos hle] at h
    split at h
    · rename_i r hr
      cases h
      exact .inr ⟨hle, r, hr, rfl⟩
    · cases h
  · simp only [if_neg hle] at h
    cases h
    exact .inl ⟨by omega, rfl⟩

/-- R178 to R180: what a data frame can do. -/
theorem dataFrame_ok {c : PipeId} {hash : BitVec 16} {data : BitVec 64} {p : Pipe} {e : PipeEffect}
    (h : dataFrame c hash data p = .ok e) :
    (p.sessionOpen = false ∧ e = ⟨p, [.cdsIgnored c .noSession], none⟩) ∨
    (p.sessionOpen = true ∧ hash ≠ p.sessHash ∧ e = ⟨p, [.cdsIgnored c .hashMismatch], none⟩) ∨
    (p.sessionOpen = true ∧ hash = p.sessHash ∧ p.rxCount.toNat ≤ p.totalSize.toNat ∧
      appendData c { p with
        buf := Memory.writeBytes p.buf p.rxCount.toNat (payloadBytes data)
        rxCount := p.rxCount + 8
        cdsState := .accumulating } = .ok e) := by
  unfold dataFrame at h
  by_cases ho : p.sessionOpen = true
  · rw [if_pos ho] at h
    by_cases hh : hash = p.sessHash
    · rw [if_pos hh] at h
      split at h
      · cases h
      · rename_i q hq
        obtain ⟨hle, rfl⟩ := memWrite8_eq_some hq
        exact .inr (.inr ⟨ho, hh, hle, h⟩)
    · rw [if_neg hh] at h
      cases h
      exact .inr (.inl ⟨ho, hh, rfl⟩)
  · rw [if_neg ho] at h
    cases h
    exact .inl ⟨by simpa using ho, rfl⟩

/-- No stream operation on a data frame touches `run` or `alive`. -/
theorem dataFrame_run_alive {c : PipeId} {hash : BitVec 16} {data : BitVec 64} {p : Pipe} {e : PipeEffect}
    (h : dataFrame c hash data p = .ok e) : e.pipe.run = p.run ∧ e.pipe.alive = p.alive := by
  rcases dataFrame_ok h with ⟨-, rfl⟩ | ⟨-, -, rfl⟩ | ⟨-, -, -, h⟩
  · exact ⟨rfl, rfl⟩
  · exact ⟨rfl, rfl⟩
  · rcases appendData_ok h with ⟨-, rfl⟩ | ⟨-, r, hr, rfl⟩
    · exact ⟨rfl, rfl⟩
    · obtain ⟨d, -, ⟨-, h⟩ | ⟨-, rfl⟩⟩ := complete_ok hr
      · rcases detectCompressed_ok h with ⟨rfl, -⟩ | ⟨-, -, -, rfl⟩ | ⟨-, -, b0, b1, b2, b3, -, rfl⟩ <;> exact ⟨rfl, rfl⟩
      · exact ⟨rfl, rfl⟩

/-- R171: what `cds_step` can do. -/
theorem cdsStep_ok {cfg : Config} {c : PipeId} {f : Frame} {p : Pipe} {e : PipeEffect} (h : cdsStep cfg c f p = .ok e) :
    (f.len.val = 6 ∧ e = announce cfg c f.hash f.annTotal f.annCrc none p) ∨
    (f.len.val = 7 ∧ e = announce cfg c f.hash f.annTotal f.annCrc (some f.annFlag) p) ∨
    (f.len.val = 8 ∧ triggerMatch cfg f = true ∧ e = trigger c f.payload p) ∨
    (f.len.val = 8 ∧ triggerMatch cfg f = false ∧ dataFrame c f.hash f.payload p = .ok e) ∨
    (f.len.val ≤ 5 ∧ e = ignoreFrame c .shortLen p) := by
  unfold cdsStep at h
  have := f.len.isLt
  split at h
  · cases h; exact .inl ⟨‹_›, rfl⟩
  · cases h; exact .inr (.inl ⟨‹_›, rfl⟩)
  · rename_i h8
    by_cases ht : triggerMatch cfg f = true
    · rw [if_pos ht] at h
      cases h; exact .inr (.inr (.inl ⟨h8, ht, rfl⟩))
    · rw [if_neg ht] at h
      exact .inr (.inr (.inr (.inl ⟨h8, by simpa using ht, h⟩)))
  · rename_i h6 h7 h8
    have h6 : f.len.val ≠ 6 := h6
    have h7 : f.len.val ≠ 7 := h7
    have h8 : f.len.val ≠ 8 := h8
    cases h; exact .inr (.inr (.inr (.inr ⟨by omega, rfl⟩)))

/-- R130: what `dispatch` can do. -/
theorem dispatch_cases (c : PipeId) (f : Frame) (s : State) :
    (handlerOf f.cmd = 0 ∧ dispatch c f s = .next (s.emit (.unknownCmd c f.cmd9))) ∨
    (handlerOf f.cmd = 19 ∧
      dispatch c f s = (s.routed c 19 f).finishPipe c (cdsStep s.cfg c f (s.pipe c.toNat))) ∨
    (handlerOf f.cmd ≠ 0 ∧ handlerOf f.cmd ≠ 19 ∧ dispatch c f s = .next (s.routed c (handlerOf f.cmd) f)) := by
  unfold dispatch
  by_cases h0 : handlerOf f.cmd = 0
  · exact .inl ⟨h0, by simp [h0]⟩
  · by_cases h19 : handlerOf f.cmd = 19
    · exact .inr (.inl ⟨h19, by simp [h19]⟩)
    · exact .inr (.inr ⟨h0, h19, (if_neg h0).trans (if_neg h19)⟩)

/-! ## Lock and control operations -/

theorem State.hasItem_iff (s : State) (item : BitVec 16) :
    s.hasItem item = true ↔ s.cfg.hasLock = true ∧ item.toNat < s.cfg.nItems := by
  simp [State.hasItem]

/-- R100, R237, R238: what a lock operation can do: be refused, fail, succeed without a change, or change its entry. -/
theorem lockOperation_cases (op : LockOp) (f : ObjectId → LockEntry → Option LockEntry) (item : BitVec 16) (o : ObjectId)
    (s : State) :
    ((s.hasItem item = false ∨ o.illFormed = true) ∧ lockOperation op f item o s = s.begin.badRequest .lk) ∨
    (s.hasItem item = true ∧ o.illFormed = false ∧
      ((f o (s.lock item.toNat) = none ∧
          lockOperation op f item o s = (s.begin.respondLock false).emit (.lockFail item op o)) ∨
       (f o (s.lock item.toNat) = some (s.lock item.toNat) ∧ lockOperation op f item o s = s.begin.respondLock true) ∨
       (∃ new, f o (s.lock item.toNat) = some new ∧ new ≠ s.lock item.toNat ∧
          lockOperation op f item o s =
            ((s.begin.setLock item.toNat new).respondLock true).emit (.lockChanged item (s.lock item.toNat) new)))) := by
  unfold lockOperation
  by_cases hok : s.hasItem item && !o.illFormed
  · rw [if_pos hok]
    simp only [Bool.and_eq_true, Bool.not_eq_true'] at hok
    refine .inr ⟨hok.1, hok.2, ?_⟩
    unfold lockResult
    cases hf : f o (s.lock item.toNat) with
    | none => exact .inl ⟨rfl, rfl⟩
    | some new =>
      by_cases hn : new = s.lock item.toNat
      · subst hn
        exact .inr (.inl ⟨rfl, by simp⟩)
      · exact .inr (.inr ⟨new, rfl, hn, by simp [hn]⟩)
  · rw [if_neg hok]
    refine .inl ⟨?_, rfl⟩
    cases h1 : s.hasItem item <;> cases h2 : o.illFormed <;> simp_all

/-- R96, R100: what a control operation on a pipeline can do. -/
theorem controlPipe_cases (c : PipeId) (f : Pipe → PipeEffect) (s : State) :
    (s.hasPipe c = true ∧ controlPipe c f s = .next (s.begin.applyPipe c (f (s.pipe c.toNat)))) ∨
    (s.hasPipe c = false ∧ controlPipe c f s = .next (s.begin.badRequest .ctl)) := by
  unfold controlPipe
  cases h : s.hasPipe c
  · exact .inr ⟨rfl, by simp⟩
  · exact .inl ⟨rfl, by simp⟩

/-- R185: what `CDS_ACK` can do to its pipeline. -/
theorem ackPipe_cases (c : PipeId) (p : Pipe) :
    (p.inflState ≠ .inflPending ∧ (p.cdsState = .complete ∨ p.cdsState = .crcError) ∧
      ackPipe c p = ⟨p.clearSession, [.cdsAcked c], none⟩) ∨
    ((p.inflState = .inflPending ∨ (p.cdsState ≠ .complete ∧ p.cdsState ≠ .crcError)) ∧ ackPipe c p = ⟨p, [], none⟩) := by
  unfold ackPipe
  cases hi : p.inflState <;> cases hc : p.cdsState <;> simp

/-! ## Clusters -/

/-- R254: forcing a list of members sets exactly the listed items. -/
theorem get_forceOrient (t : List (Nat × Bool)) (o : Bool) (ms : List (Nat × Bool)) (i : Nat) :
    Table.get false (forceOrient t o ms) i = if i ∈ ms.map Prod.fst then o else Table.get false t i := by
  induction ms generalizing t with
  | nil => simp [forceOrient]
  | cons m ms ih =>
    simp only [forceOrient, ih, Table.get_set, List.map_cons, List.mem_cons]
    by_cases h : i ∈ ms.map Prod.fst
    · rw [if_pos h, if_pos (.inr h)]
    · by_cases hi : i = m.1
      · rw [if_neg h, if_pos hi, if_pos (.inl hi)]
      · rw [if_neg h, if_neg hi, if_neg (by tauto)]

theorem wf_forceOrient {t : List (Nat × Bool)} (o : Bool) (ms : List (Nat × Bool)) (h : Table.wf false t = true) :
    Table.wf false (forceOrient t o ms) = true := by
  induction ms generalizing t with
  | nil => exact h
  | cons m ms ih => exact ih (Table.wf_set _ _ h)

/-- Reading an orientation bit after a change that nothing blocks. -/
theorem State.orientChanged_orientOf (s : State) (k : Nat) (o : Bool) (i : Nat) :
    (s.orientChanged k o).orientOf i =
      if i ∈ (clusterMembersOf s.cfg k).map Prod.fst then o else s.orientOf i := get_forceOrient _ _ _ _

/-- Reading a cluster's orientation after a change that nothing blocks. -/
theorem State.orientChanged_clOrientOf (s : State) (k j : Nat) (o : Bool) :
    (s.orientChanged k o).clOrientOf j = if j = k then o else s.clOrientOf j := Table.get_set _ _ _ _ _

end Sys2Proof.Machine
end

