-- ==== Sys2Proof/Laws/PerInstr.lean ====
section
/-! SUPPORT. Statements made per instruction: the word the encoder writes fits its port (R93, R95: an `lk` or `cl` word has
`24 + OBJ_ID_BITS` bits). -/

namespace Sys2Proof.Laws

/-- The encoding of a well-formed instruction is a word of its port. -/
def EncodeFits.Statement (i : Instr) : Prop := ∀ cfg : Config, i.wf cfg = true → (encode cfg i).wf cfg = true

/-- Twenty-four high bits over an object id make a word of `24 + n` bits. -/
theorem word_fits {n id : Nat} (hi : BitVec 24) (h : id < 2 ^ n) : hi.toNat * 2 ^ n + id < 2 ^ (24 + n) := by
  have h1 : hi.toNat * 2 ^ n + id < (hi.toNat + 1) * 2 ^ n := by rw [Nat.add_mul, Nat.one_mul]; omega
  have h2 : (hi.toNat + 1) * 2 ^ n ≤ 2 ^ 24 * 2 ^ n := Nat.mul_le_mul_right _ hi.isLt
  rw [Nat.pow_add]
  omega

theorem EncodeFits.illen (c : PipeId) (lenb : Byte) :
    EncodeFits.Statement (.illen c lenb) := fun _ _ => rfl
theorem EncodeFits.system (c : PipeId) (h : Header) (b : Body) :
    EncodeFits.Statement (.system c h b) := fun _ _ => rfl
theorem EncodeFits.discovery (c : PipeId) (h : Header) (b : Body) :
    EncodeFits.Statement (.discovery c h b) := fun _ _ => rfl
theorem EncodeFits.bind (c : PipeId) (h : Header) (b : Body) :
    EncodeFits.Statement (.bind c h b) := fun _ _ => rfl
theorem EncodeFits.verify (c : PipeId) (h : Header) (b : Body) :
    EncodeFits.Statement (.verify c h b) := fun _ _ => rfl
theorem EncodeFits.speed (c : PipeId) (h : Header) (b : Body) :
    EncodeFits.Statement (.speed c h b) := fun _ _ => rfl
theorem EncodeFits.direction (c : PipeId) (h : Header) (b : Body) :
    EncodeFits.Statement (.direction c h b) := fun _ _ => rfl
theorem EncodeFits.function (c : PipeId) (h : Header) (b : Body) :
    EncodeFits.Statement (.function c h b) := fun _ _ => rfl
theorem EncodeFits.readConfig (c : PipeId) (h : Header) (b : Body) :
    EncodeFits.Statement (.readConfig c h b) := fun _ _ => rfl
theorem EncodeFits.writeConfig (c : PipeId) (h : Header) (b : Body) :
    EncodeFits.Statement (.writeConfig c h b) := fun _ _ => rfl
theorem EncodeFits.accSwitch (c : PipeId) (h : Header) (b : Body) :
    EncodeFits.Statement (.accSwitch c h b) := fun _ _ => rfl
theorem EncodeFits.s88A (c : PipeId) (h : Header) (b : Body) :
    EncodeFits.Statement (.s88A c h b) := fun _ _ => rfl
theorem EncodeFits.s88B (c : PipeId) (h : Header) (b : Body) :
    EncodeFits.Statement (.s88B c h b) := fun _ _ => rfl
theorem EncodeFits.ping (c : PipeId) (h : Header) (b : Body) :
    EncodeFits.Statement (.ping c h b) := fun _ _ => rfl
theorem EncodeFits.bootloader (c : PipeId) (h : Header) (b : Body) :
    EncodeFits.Statement (.bootloader c h b) := fun _ _ => rfl
theorem EncodeFits.cfgStatus (c : PipeId) (h : Header) (b : Body) :
    EncodeFits.Statement (.cfgStatus c h b) := fun _ _ => rfl
theorem EncodeFits.vendor1E (c : PipeId) (h : Header) (b : Body) :
    EncodeFits.Statement (.vendor1E c h b) := fun _ _ => rfl
theorem EncodeFits.vendor1F (c : PipeId) (h : Header) (b : Body) :
    EncodeFits.Statement (.vendor1F c h b) := fun _ _ => rfl
theorem EncodeFits.vendor20 (c : PipeId) (h : Header) (b : Body) :
    EncodeFits.Statement (.vendor20 c h b) := fun _ _ => rfl
theorem EncodeFits.cdsAnn6 (c : PipeId) (h : Header) (total : BitVec 32) (crc : BitVec 16) :
    EncodeFits.Statement (.cdsAnn6 c h total crc) := fun _ _ => rfl
theorem EncodeFits.cdsAnn7 (c : PipeId) (h : Header) (total : BitVec 32) (crc : BitVec 16) (flag : Byte) :
    EncodeFits.Statement (.cdsAnn7 c h total crc flag) := fun _ _ => rfl
theorem EncodeFits.cdsTrig (c : PipeId) (h : Header) (name : BitVec 64) :
    EncodeFits.Statement (.cdsTrig c h name) := fun _ _ => rfl
theorem EncodeFits.cdsData (c : PipeId) (h : Header) (data : BitVec 64) :
    EncodeFits.Statement (.cdsData c h data) := fun _ _ => rfl
theorem EncodeFits.cdsShort (c : PipeId) (h : Header) (b : Body) :
    EncodeFits.Statement (.cdsShort c h b) := fun _ _ => rfl
theorem EncodeFits.vendor22 (c : PipeId) (h : Header) (b : Body) :
    EncodeFits.Statement (.vendor22 c h b) := fun _ _ => rfl
theorem EncodeFits.unknown (c : PipeId) (cmd : BitVec 8) (h : Header) (b : Body) :
    EncodeFits.Statement (.unknown c cmd h b) := fun _ _ => rfl
theorem EncodeFits.rxFrame (c : PipeId) (w : WireWord) :
    EncodeFits.Statement (.rxFrame c w) := fun _ _ => rfl
theorem EncodeFits.rxBadsize (c : PipeId) (n : BitVec 16) :
    EncodeFits.Statement (.rxBadsize c n) := fun _ _ => rfl
theorem EncodeFits.rxTimeout (c : PipeId) :
    EncodeFits.Statement (.rxTimeout c) := fun _ _ => rfl
theorem EncodeFits.rxClosed (c : PipeId) :
    EncodeFits.Statement (.rxClosed c) := fun _ _ => rfl
theorem EncodeFits.rxError (c : PipeId) :
    EncodeFits.Statement (.rxError c) := fun _ _ => rfl
theorem EncodeFits.isinuse (item : BitVec 16) :
    EncodeFits.Statement (.isinuse item) := fun _ _ => decide_eq_true (word_fits _ (Nat.two_pow_pos _))
theorem EncodeFits.reserve (item : BitVec 16) (owner : ObjectId) :
    EncodeFits.Statement (.reserve item owner) := fun _ h => decide_eq_true (word_fits _ (of_decide_eq_true h))
theorem EncodeFits.lock (item : BitVec 16) (owner : ObjectId) :
    EncodeFits.Statement (.lock item owner) := fun _ h => decide_eq_true (word_fits _ (of_decide_eq_true h))
theorem EncodeFits.release (item : BitVec 16) (owner : ObjectId) :
    EncodeFits.Statement (.release item owner) := fun _ h => decide_eq_true (word_fits _ (of_decide_eq_true h))
theorem EncodeFits.canSetOrient (k : BitVec 16) (o : Bool) (loco : ObjectId) :
    EncodeFits.Statement (.canSetOrient k o loco) := fun _ h => decide_eq_true (word_fits _ (of_decide_eq_true h))
theorem EncodeFits.setOrient (k : BitVec 16) (o : Bool) (loco : ObjectId) :
    EncodeFits.Statement (.setOrient k o loco) := fun _ h => decide_eq_true (word_fits _ (of_decide_eq_true h))
theorem EncodeFits.reset : EncodeFits.Statement .reset := fun _ _ => rfl
theorem EncodeFits.pipeStart (c : PipeId) :
    EncodeFits.Statement (.pipeStart c) := fun _ _ => rfl
theorem EncodeFits.pipeStop (c : PipeId) :
    EncodeFits.Statement (.pipeStop c) := fun _ _ => rfl
theorem EncodeFits.cdsAck (c : PipeId) :
    EncodeFits.Statement (.cdsAck c) := fun _ _ => rfl
theorem EncodeFits.inflDone (c : PipeId) (ok : Bool) (outLen : BitVec 32) :
    EncodeFits.Statement (.inflDone c ok outLen) := fun _ _ => rfl
theorem EncodeFits.encode (c : PipeId) (id : BitVec 29) (len : BitVec 4) (payload : BitVec 64) :
    EncodeFits.Statement (.encode c id len payload) := fun _ _ => rfl

end Sys2Proof.Laws
end

