-- ==== Sys2Proof/Laws/Ready.lean ====
section
/-! SUPPORT. The shared operations in the terms the statements use: `Ready`, `NotEnabled`, `OnlyPipe`, `refusal`. -/

namespace Sys2Proof.Machine

/-- R111: an RX transaction of a ready pipeline is carried out. -/
theorem rxGate_ready {s : State} {c : PipeId} (h : Ready s c) (k : State → Host.Outcome State Fault Refusal) :
    rxGate c s k = k s.begin :=
  rxGate_enabled (by simpa [State.hasPipe] using h.1) (by simpa [Pipe.enabled, and_assoc] using h.2) k

/-- R111: the words `takeFirst` passes over are the ones that are not enabled. -/
theorem held_iff (s : State) (w : PortWord) : s.held w = true ↔ NotEnabled s w := by
  unfold State.held NotEnabled Ready
  cases h : rxPipeOf w with
  | none => simp
  | some c =>
    simp [State.hasPipe, ← Pipe.enabled_iff]
    exact fun h => .inl h

/-- R100: the outcome of a refused word. -/
theorem badRequest_eq (s : State) (p : Port) : s.begin.badRequest p = { s with out := refusal p } := by cases p <;> rfl

/-- A stream operation on pipeline `c` touches that pipeline only. -/
theorem onlyPipe_applyPipe (s : State) (c : PipeId) (e : PipeEffect) : OnlyPipe c s (s.begin.applyPipe c e) :=
  ⟨rfl, rfl, rfl, rfl, rfl, fun c' h => by rw [State.applyPipe_pipe, if_neg h]; rfl⟩

/-- R152: a stream frame on a ready pipeline whose operation answers. -/
theorem streamFrame_ready {s : State} {c : PipeId} (hr : Ready s c) (f : Frame)
    (op : Config → Pipe → Except Fault PipeEffect) (e : PipeEffect) (h : op s.cfg (s.pipe c.toNat) = .ok e) :
    streamFrame c f op s = .next ((s.begin.routed c 19 f).applyPipe c e) := by
  simp only [streamFrame, rxGate_ready hr]
  show State.finishPipe _ c (op s.cfg (s.pipe c.toNat)) = _
  rw [h]
  rfl

/-- R172, R173: what an announce can do. -/
theorem announce_cases (cfg : Config) (c : PipeId) (hash : BitVec 16) (total : BitVec 32) (crc : BitVec 16)
    (flag : Option Byte) (p : Pipe) :
    (cfg.maxTotal < total.toNat ∧
      announce cfg c hash total crc flag p = ⟨p.clearSession, [.announceRefused c total], none⟩) ∨
    (total.toNat ≤ cfg.maxTotal ∧ announce cfg c hash total crc flag p = ⟨{ p with
        totalSize := total, crcAnn := crc, flag := flag.getD 0, flagValid := flag.isSome, sessHash := hash, rxCount := 0
        buf := [], crcCalc := 0, compressed := false, inflSize := 0, inflState := .inflNone, cdsState := .announced },
      [.cdsAnnounced c total crc hash], none⟩) := by
  unfold announce
  by_cases h : cfg.maxTotal < total.toNat
  · exact .inl ⟨h, if_pos h⟩
  · exact .inr ⟨by omega, if_neg h⟩

/-- R219: what an accepted answer of the inflater can do to its pipeline. -/
theorem inflateAnswer_cases (c : PipeId) (ok : Bool) (outLen : BitVec 32) (p : Pipe) :
    (ok = true ∧ outLen = p.inflSize ∧
      inflateAnswer c ok outLen p = ⟨{ p with inflState := .inflOk }, [.cdsComplete c p.inflSize true], none⟩) ∨
    (¬(ok = true ∧ outLen = p.inflSize) ∧ inflateAnswer c ok outLen p =
      ⟨{ p with inflState := .inflErr },
       [.decompressError c (if ok then .lengthMismatch else .inflateFailed)], none⟩) := by
  unfold inflateAnswer
  by_cases h : ok = true ∧ outLen = p.inflSize
  · exact .inl ⟨h.1, h.2, if_pos (by simpa using h)⟩
  · exact .inr ⟨h, if_neg (by simpa using h)⟩

end Sys2Proof.Machine
end

