-- ==== Sys2Proof/Tests/Slice0.lean ====
section
/-! SUPPORT. Tests. Expected values come from spec/95_test_vectors.md (V-…, P1 to P6) and 43_crc16.md (R211), or are worked
out by hand from the rule named. Each is one step on a small state. The second half holds the witnesses: for each statement
with hypotheses, a concrete state and operands that meet them. -/

namespace Sys2Proof.Tests

open Sys2Proof.Machine

/-! ## Small states -/

/-- A pipeline after `PIPE_START`. -/
def openPipe : Pipe := { Pipe.reset with run := true, alive := true }

/-- A block whose only pipeline not in its reset state is pipeline 0. -/
def one (cfg : Config) (p : Pipe) : State := { State.powerOn cfg with pipes := [(0, p)] }

/-- The start state of 95_test_vectors.md: reset, then `PIPE_START 0`. -/
def ready : State := one .default openPipe

/-- After the announce of a stream, session hash 0x0300. -/
def announced (total : BitVec 32) (crc : BitVec 16) : Pipe :=
  { openPipe with cdsState := .announced, totalSize := total, crcAnn := crc, sessHash := 0x0300 }

/-- `buf` holding these bytes from address 0. -/
def cells (bytes : List Byte) : List Host.Cell := (List.range bytes.length).zip bytes

/-- P1 after step 3: eight of sixteen bytes. -/
def halfway : Pipe :=
  { announced 16 0x7E66 with
    cdsState := .accumulating, rxCount := 8, buf := cells [0x10, 0x11, 0x12, 0x13, 0x14, 0x15, 0x16, 0x17] }

/-- P3 after step 3: eight of sixteen bytes of a compressed stream. -/
def halfCompressed : Pipe :=
  { announced 16 0x237E with
    cdsState := .accumulating, rxCount := 8, buf := cells [0x00, 0x00, 0x00, 0x1E, 0xCB, 0x48, 0xCD, 0xC9] }

/-- V-I9 after its data frame: a compressed stream of size prefix 0, the inflater asked. -/
def pending4 : Pipe :=
  { announced 4 0x84C0 with
    cdsState := .complete, rxCount := 8, crcCalc := 0x84C0, compressed := true, inflState := .inflPending
    buf := cells [0, 0, 0, 0, 0, 0, 0, 0] }

/-- `Loco:n`. -/
def loco (n : Nat) : ObjectId := ⟨.loco, n⟩

/-- The default block with entry `e` at item 5. -/
def withLock (e : LockEntry) : State := { State.reset with locks := [(5, e)] }

/-- P6: one cluster with members (5, 0) and (6, 1). -/
def clusterCfg : Config :=
  { Config.default with hasCluster := true, nClusters := 1, clusterMembers := [[(5, false), (6, true)]] }

/-- V-R10: the premise, for the one frame the vector uses. -/
def triggerCfg : Config := { Config.default with triggers := [⟨0x00420301, 8, 0x6C6F6B7300000000⟩] }

/-- The state after an instruction, if it answers one. -/
def after (i : Instr) (s : State) : Option State :=
  match exec i s with
  | .next t => some t
  | .fault _ => none
  | .refused _ => none

/-- What `after` says. -/
theorem of_after {i : Instr} {s : State} {P : State → Bool} (h : (after i s).any P = true) :
    ∃ t, exec i s = .next t ∧ P t = true := by
  unfold after at h
  cases hx : exec i s with
  | next t => rw [hx] at h; exact ⟨t, rfl, h⟩
  | fault r => rw [hx] at h; cases h
  | refused r => rw [hx] at h; cases h

/-- The state after one step with the one word presented, if it answers one. -/
def stepOn (s : State) (w : PortWord) : Option State :=
  match step { s with pending := [w] } with
  | .next t => some t
  | .fault _ => none
  | .refused _ => none

/-- The events of one step with the one word presented. -/
def events (s : State) (w : PortWord) : Option (List Event) := (stepOn s w).map (·.out.events)

/-- Pipeline 0 after one step with the one word presented. -/
def pipe0 (s : State) (w : PortWord) : Option Pipe := (stepOn s w).map (·.pipe 0)

/-! ## WellFormed refuses ill-formed terms -/

/-- A body whose byte 0 lies beyond its length 0. -/
def badBody : Body := ⟨0, 0xFF00000000000000⟩
/-- A header of zeros. -/
def h0 : Header := ⟨0, false, false, 0⟩
/-- The header of the frames of 2.2: hash 0x4711. -/
def hd : Header := ⟨0, false, false, 0x4711⟩
/-- The header of the frames of 2.3: hash 0x0300. -/
def hs : Header := ⟨0, false, false, 0x0300⟩
/-- The empty body. -/
def b0 : Body := ⟨0, 0⟩

theorem test_wf_illen : (Instr.illen 0 8).wf .default = false := by decide
theorem test_wf_padding : (([.system 0 h0 badBody, .discovery 0 h0 badBody, .bind 0 h0 badBody, .verify 0 h0 badBody,
    .speed 0 h0 badBody, .direction 0 h0 badBody, .function 0 h0 badBody, .readConfig 0 h0 badBody,
    .writeConfig 0 h0 badBody, .accSwitch 0 h0 badBody, .s88A 0 h0 badBody, .s88B 0 h0 badBody, .ping 0 h0 badBody,
    .bootloader 0 h0 badBody, .cfgStatus 0 h0 badBody, .vendor1E 0 h0 badBody, .vendor1F 0 h0 badBody,
    .vendor20 0 h0 badBody, .vendor22 0 h0 badBody, .cdsShort 0 h0 badBody, .unknown 0 9 h0 badBody] : List Instr).all
    fun i => !i.wf .default) = true := by decide
theorem test_wf_short : (Instr.cdsShort 0 h0 ⟨6, 0⟩).wf .default = false := by decide
theorem test_wf_unknown : (Instr.unknown 0 0x18 h0 b0).wf .default = false := by decide
theorem test_wf_trigger : (Instr.cdsTrig 0 h0 0).wf .default = false := by decide
theorem test_wf_data : (Instr.cdsData 0 ⟨0, false, false, 0x0301⟩ 0x6C6F6B7300000000).wf triggerCfg = false := by decide
theorem test_wf_badsize : (Instr.rxBadsize 0 13).wf .default = false := by decide
theorem test_wf_owner : ([Instr.reserve 5 (loco 65536), .lock 5 (loco 65536), .release 5 (loco 65536),
    .canSetOrient 0 true (loco 65536), .setOrient 0 true (loco 65536)].all fun i => !i.wf .default) = true := by decide
theorem test_wf_words : (PortWord.lk (2 ^ 40)).wf .default = false ∧ (PortWord.cl (2 ^ 40)).wf .default = false := by decide
theorem test_wf_config :
    { Config.default with nConn := 0 }.wf = false ∧
    { Config.default with nItems := 65537 }.wf = false ∧
    { Config.default with maxTotal := 2 ^ 32 }.wf = false ∧
    { clusterCfg with hasLock := false }.wf = false ∧
    { clusterCfg with nClusters := 2 }.wf = false ∧
    { clusterCfg with clusterMembers := [[(256, false)]] }.wf = false ∧
    { clusterCfg with clusterMembers := [[(5, false), (5, true)]] }.wf = false ∧
    { Config.default with lockInit := [(6, ⟨.free, loco 3⟩), (5, ⟨.free, loco 3⟩)] }.wf = false ∧
    { Config.default with lockInit := [(256, ⟨.free, loco 3⟩)] }.wf = false ∧
    { Config.default with lockInit := [(5, .freeUnset)] }.wf = false ∧
    { Config.default with lockInit := [(5, ⟨.reserved, ⟨.loco, 0⟩⟩)] }.wf = false ∧
    { Config.default with lockInit := [(5, ⟨.reserved, loco 65536⟩)] }.wf = false ∧
    Config.default.wf = true ∧ clusterCfg.wf = true := by decide
theorem test_memory_wf : Memory.wf [(1, 0), (0, 0)] = false ∧ Memory.wf [(0, 0), (0, 1)] = false ∧
    Memory.wf (State.reset.pipe 0).buf = true ∧ Memory.wf (cells [1, 2]) = true := by decide

/-! ## Decoding, from words written out from the spec -/

theorem test_decode_illen : decode .default (.frame 0 0x00420300090000000000000000) = .ok (.illen 0 9) ∧
    decode .default (.frame 0 0x00420300180000000000000000) = .ok (.illen 0 0x18) ∧
    decode .default (.frame 0 0x01FF4711FF0000000000000000) = .ok (.illen 0 0xFF) := by decide  -- V-C3, V-C4, V-D25
theorem test_decode_system : decode .default (.frame 0 0x00004711050000000001000000) = .ok (.system 0 hd ⟨5, 0x01000000⟩) ∧
    decode .default (.frame 0 0x00014711040000000077000000) = .ok (.system 0 { hd with resp := true } ⟨4, 0⟩) := by
  decide  -- V-D1a, V-D1c with the response bit of V-D1b
theorem test_decode_discovery : decode .default (.frame 0 0x00024711000000000000000000) = .ok (.discovery 0 hd b0) := by
  decide  -- V-D2
theorem test_decode_bind : decode .default (.frame 0 0x00044711000000000000000000) = .ok (.bind 0 hd b0) := by
  decide  -- V-D3
theorem test_decode_verify : decode .default (.frame 0 0x00064711000000000000000000) = .ok (.verify 0 hd b0) := by
  decide  -- V-D4
theorem test_decode_speed : decode .default (.frame 0 0x00084711000000000000000000) = .ok (.speed 0 hd b0) := by
  decide  -- V-D5
theorem test_decode_direction : decode .default (.frame 0 0x000A4711000000000000000000) = .ok (.direction 0 hd b0) := by
  decide  -- V-D6
theorem test_decode_function : decode .default (.frame 0 0x000C4711000000000000000000) = .ok (.function 0 hd b0) := by
  decide  -- V-D7
theorem test_decode_readConfig : decode .default (.frame 0 0x000F4711000000000000000000) =
    .ok (.readConfig 0 { hd with resp := true } b0) := by decide  -- V-D8
theorem test_decode_writeConfig : decode .default (.frame 0 0x00104711000000000000000000) = .ok (.writeConfig 0 hd b0) := by
  decide  -- V-D9
theorem test_decode_accSwitch : decode .default (.frame 0 0x00164711000000000000000000) = .ok (.accSwitch 0 hd b0) := by
  decide  -- V-D10
theorem test_decode_s88A : decode .default (.frame 0 0x00204711000000000000000000) = .ok (.s88A 0 hd b0) := by
  decide  -- V-D11
theorem test_decode_s88B : decode .default (.frame 0 0x00224711000000000000000000) = .ok (.s88B 0 hd b0) := by
  decide  -- V-D12
theorem test_decode_ping : decode .default (.frame 0 0x00314711081234567801270010) =
    .ok (.ping 0 { hd with resp := true } ⟨8, 0x1234567801270010⟩) ∧
    decode .default (.frame 0 0xE031471103AABBCCDDEEFF1122) = .ok (.ping 0 { hd with resp := true } ⟨3, 0xAABBCC0000000000⟩) ∧
    decode .default (.frame 0 0x1E314711000000000000000000) = .ok (.ping 0 ⟨7, true, true, 0x4711⟩ b0) := by
  decide  -- V-C1, V-C7, V-D24
theorem test_decode_bootloader : decode .default (.frame 0 0x00364711000000000000000000) = .ok (.bootloader 0 hd b0) := by
  decide  -- V-D14
theorem test_decode_cfgStatus : decode .default (.frame 0 0x003A4711000000000000000000) = .ok (.cfgStatus 0 hd b0) := by
  decide  -- V-D15
theorem test_decode_vendor1E : decode .default (.frame 0 0x003C4711000000000000000000) = .ok (.vendor1E 0 hd b0) := by
  decide  -- V-D16
theorem test_decode_vendor1F : decode .default (.frame 0 0x003E4711000000000000000000) = .ok (.vendor1F 0 hd b0) := by
  decide  -- V-D17
theorem test_decode_vendor20 : decode .default (.frame 0 0x00404711000000000000000000) = .ok (.vendor20 0 hd b0) := by
  decide  -- V-D18
theorem test_decode_vendor22 : decode .default (.frame 0 0x00454711000000000000000000) =
    .ok (.vendor22 0 { hd with resp := true } b0) := by decide  -- V-D20
theorem test_decode_cdsAnn6 : decode .default (.frame 0 0x0042030006000000107E660000) = .ok (.cdsAnn6 0 hs 16 0x7E66) := by
  decide  -- P1
theorem test_decode_cdsAnn7 : decode .default (.frame 0 0x004203000700000014E68C0100) = .ok (.cdsAnn7 0 hs 20 0xE68C 1) := by
  decide  -- V-R7
theorem test_decode_cdsTrig : decode triggerCfg (.frame 0 0x00420301086C6F6B7300000000) =
    .ok (.cdsTrig 0 { hs with hash := 0x0301 } 0x6C6F6B7300000000) := by decide  -- V-R10
theorem test_decode_cdsData : decode triggerCfg (.frame 0 0x00430300084142434445464748) =
    .ok (.cdsData 0 { hs with resp := true } 0x4142434445464748) := by decide  -- V-R9
theorem test_decode_cdsShort : decode .default (.frame 0 0x00420300050102030405000000) =
    .ok (.cdsShort 0 hs ⟨5, 0x0102030405000000⟩) := by decide  -- V-R8 (c)
theorem test_decode_unknown : decode .default (.frame 0 0x00124711000000000000000000) = .ok (.unknown 0 9 hd b0) ∧
    decode .default (.frame 0 0x01FF4711000000000000000000) = .ok (.unknown 0 0xFF { hd with resp := true } b0) := by
  decide  -- V-D21, V-D23
theorem test_decode_rx : decode .default (.rxu 0 0 0 0x00304711000000000000000000) =
      .ok (.rxFrame 0 0x00304711000000000000000000) ∧
    decode .default (.rxu 0 1 7 0) = .ok (.rxBadsize 0 7) ∧ decode .default (.rxu 0 2 7 0) = .ok (.rxTimeout 0) ∧
    decode .default (.rxu 0 3 0 0) = .ok (.rxClosed 0) ∧ decode .default (.rxu 1 4 0 0) = .ok (.rxError 1) ∧
    decode .default (.rxu 0 5 0 0) = .error .rxuKind := by decide  -- R92
theorem test_decode_lk : decode .default (.lk 0x0000500000) = .ok (.isinuse 5) ∧
    decode .default (.lk 0x4000570003) = .ok (.reserve 5 (loco 3)) ∧
    decode .default (.lk 0x8000570003) = .ok (.lock 5 (loco 3)) ∧
    decode .default (.lk 0xC000570003) = .ok (.release 5 (loco 3)) ∧
    decode .default (.lk 0x1000500000) = .error .lkReserved := by decide  -- 2.6, V-L9
theorem test_decode_cl : decode .default (.cl 0x4000070003) = .ok (.canSetOrient 0 true (loco 3)) ∧
    decode .default (.cl 0xC000070003) = .ok (.setOrient 0 true (loco 3)) ∧
    decode .default (.cl 0x8000070003) = .ok (.setOrient 0 false (loco 3)) ∧
    decode .default (.cl 0x2000070003) = .error .clReserved := by decide  -- 2.7, R95
theorem test_decode_ctl : decode .default (.ctl 0x10FFFF) = .ok .reset ∧
    decode .default (.ctl 0x200001) = .ok (.pipeStart 1) ∧ decode .default (.ctl 0x300000) = .ok (.pipeStop 0) ∧
    decode .default (.ctl 0x400000) = .ok (.cdsAck 0) ∧ decode .default (.ctl 0x500000) = .error .ctlReserved ∧
    decode .default (.ctl 0x210000) = .error .ctlReserved ∧ decode .default (.ctl 0) = .error .ctlReserved := by
  decide  -- 2.8, V-T5, V-T6
theorem test_decode_inf_tx : decode .default (.inf 0x010000001E) = .ok (.inflDone 0 true 30) ∧
    decode .default (.tx 0 0x00314711 8 0x1234567801270010) = .ok (.encode 0 0x00314711 8 0x1234567801270010) := by
  decide  -- P3, V-C5
theorem test_object_bits : decode { Config.default with objIdBits := 8 } (.lk 0x40005703) = .ok (.reserve 5 (loco 3)) := by
  decide  -- R93 with OBJ_ID_BITS = 8
theorem test_table_word : decodeTableWord 24 0x200000 = some (.pipeStart 0) ∧ decodeTableWord 8 4 = some (.rxError 0) ∧
    decodeTableWord 104 0x00240000000000000000000000 = some (.unknown 0 0x12 h0 b0) ∧ decodeTableWord 16 0 = none := by
  decide

/-! ## Receiving -/

theorem test_illen : events ready (.frame 0 0x01FF4711090000000000000000) = some [.invalidLength 0 9] := by decide  -- V-D25
theorem test_system : (stepOn ready (.frame 0 0x00004711050000000001000000)).map (·.out.handler) =
    some (some ⟨0, 1, false, ⟨0x00004711, 5, 0x01000000⟩, 1, true⟩) := by decide  -- V-D1a
theorem test_system_short : (stepOn ready (.frame 0 0x00014711040000000077000000)).map (fun t => (t.out.events, t.out.handler)) =
    some ([.dispatch 0 1 true], some ⟨0, 1, true, ⟨0x00014711, 4, 0⟩, 0, false⟩) := by decide  -- V-D1b, V-D1c
/-- V-D2 to V-D18, V-D20: one event, the handler number of the command. -/
theorem test_routed : ([(0x00024711000000000000000000, 2), (0x00044711000000000000000000, 3),
    (0x00064711000000000000000000, 4), (0x00084711000000000000000000, 5), (0x000A4711000000000000000000, 6),
    (0x000C4711000000000000000000, 7), (0x000E4711000000000000000000, 8), (0x00104711000000000000000000, 9),
    (0x00164711000000000000000000, 10), (0x00204711000000000000000000, 11), (0x00224711000000000000000000, 12),
    (0x00304711000000000000000000, 13), (0x00364711000000000000000000, 14), (0x003A4711000000000000000000, 15),
    (0x003C4711000000000000000000, 16), (0x003E4711000000000000000000, 17), (0x00404711000000000000000000, 18),
    (0x00444711000000000000000000, 20)] : List (WireWord × BitVec 5)).all
    (fun e => events ready (.frame 0 e.1) == some [.dispatch 0 e.2 false]) = true := by decide
theorem test_unknown : events ready (.frame 0 0x01FF4711000000000000000000) = some [.unknownCmd 0 0x1FF] := by decide  -- V-D23
theorem test_rxFrame : (stepOn ready (.rxu 0 0 0 0x1E314711000000000000000000)).map (·.out.events) =
    some [.dispatch 0 13 true] := by decide  -- V-D24
theorem test_rxBadsize : events (one .default halfway) (.rxu 0 1 7 0) = some [.badSize 0 7] ∧
    pipe0 (one .default halfway) (.rxu 0 1 7 0) = some halfway := by decide  -- V-C11
theorem test_rxTimeout : (stepOn ready (.rxu 0 2 0 0)) = some { ready with out := .empty } := by decide  -- V-C13
theorem test_rxClosed : events (one .default halfway) (.rxu 0 3 0 0) = some [.connDead 0 .closed] ∧
    pipe0 (one .default halfway) (.rxu 0 3 0 0) = some { halfway with alive := false } := by decide  -- V-C14
theorem test_rxError : events ready (.rxu 0 4 0 0) = some [.connDead 0 .error] ∧
    pipe0 ready (.rxu 0 4 0 0) = some { openPipe with alive := false } := by decide  -- V-C15
theorem test_held : stepOn State.reset (.frame 0 0x00304711000000000000000000) =
    some { State.reset with pending := [.frame 0 0x00304711000000000000000000] } := by decide  -- V-C16
theorem test_held_pending : events (one .default pending4) (.frame 0 0x00304711000000000000000000) = some [] := by
  decide  -- V-I2
theorem test_rx_refused : events ready (.rxu 0 5 0 0) = some [.badRequest .rxu] ∧
    events ready (.rxu 1 2 0 0) = some [.badRequest .rxu] := by decide  -- V-C18
theorem test_datagram : (cutDatagram 0 (List.replicate 27 0x41)) =
    [.rxu 0 0 0 0x41414141414141414141414141, .rxu 0 0 0 0x41414141414141414141414141, .rxu 0 1 1 0] := by decide  -- V-C17

/-! ## The config-data stream -/

theorem test_cdsAnn6 : pipe0 ready (.frame 0 0x0042030006000000107E660000) = some (announced 16 0x7E66) ∧
    events ready (.frame 0 0x0042030006000000107E660000) =
      some [.dispatch 0 19 false, .cdsAnnounced 0 16 0x7E66 0x0300] := by decide  -- P1 step 2
theorem test_cdsAnn6_refused : pipe0 (one { Config.default with maxTotal := 65535 } halfway)
      (.frame 0 0x00420300060001000012340000) = some openPipe ∧
    events (one { Config.default with maxTotal := 65535 } halfway) (.frame 0 0x00420300060001000012340000) =
      some [.dispatch 0 19 false, .announceRefused 0 65536] := by decide  -- V-R11
theorem test_cdsAnn7 : pipe0 (one .default halfway) (.frame 0 0x004203000700000014E68C0100) =
    some { announced 20 0xE68C with flag := 1, flagValid := true } := by decide  -- P4 step 4
theorem test_cdsTrig : pipe0 (one triggerCfg halfway) (.frame 0 0x00420301086C6F6B7300000000) =
      some { halfway with name := 0x6C6F6B7300000000, nameValid := true } ∧
    events (one triggerCfg halfway) (.frame 0 0x00420301086C6F6B7300000000) =
      some [.dispatch 0 19 false, .cdsTrigger 0 0x6C6F6B7300000000] := by decide  -- V-R10
theorem test_cdsData : pipe0 (one .default (announced 16 0x7E66)) (.frame 0 0x00420300081011121314151617) = some halfway ∧
    events (one .default (announced 16 0x7E66)) (.frame 0 0x00420300081011121314151617) =
      some [.dispatch 0 19 false, .cdsData 0 8] := by decide  -- P1 step 3
theorem test_cdsData_complete : events (one .default halfway) (.frame 0 0x004203000818191A1B1C1D1E1F) =
      some [.dispatch 0 19 false, .cdsData 0 16, .cdsComplete 0 16 false] ∧
    (pipe0 (one .default halfway) (.frame 0 0x004203000818191A1B1C1D1E1F)).map (fun p => (p.cdsState, p.rxCount, p.crcCalc)) =
      some (.complete, 16, 0x7E66) := by decide +kernel  -- P1 step 4
theorem test_crc_error : events (one .default { halfway with crcAnn := 0xABCD }) (.frame 0 0x004203000818191A1B1C1D1E1F) =
      some [.dispatch 0 19 false, .cdsData 0 16, .crcError 0 0xABCD 0x7E66] ∧
    pipe0 (one .default { halfway with crcAnn := 0xABCD }) (.frame 0 0x004203000818191A1B1C1D1E1F) =
      some { announced 16 0xABCD with cdsState := .crcError, crcCalc := 0x7E66 } := by decide +kernel  -- S1 step 3
theorem test_empty_stream : events (one .default (announced 0 0xFFFF)) (.frame 0 0x00420300080000000000000000) =
    some [.dispatch 0 19 false, .cdsData 0 8, .cdsComplete 0 0 false] := by decide +kernel  -- V-R4
theorem test_inflate_start : events (one .default halfCompressed) (.frame 0 0x0042030008C957C8C04E720100) =
      some [.dispatch 0 19 false, .cdsData 0 16, .inflateStart 0 4 12 30] ∧
    (stepOn (one .default halfCompressed) (.frame 0 0x0042030008C957C8C04E720100)).map (·.out.inflateRequest) =
      some (some ⟨0, 4, 12, 30⟩) := by decide +kernel  -- P3 step 4
theorem test_short_prefix : events (one .default (announced 3 0x9C39)) (.frame 0 0x00420300080000050000000000) =
    some [.dispatch 0 19 false, .cdsData 0 8, .decompressError 0 .shortPrefix] := by decide +kernel  -- V-I8
theorem test_inflate_zero : pipe0 (one .default (announced 4 0x84C0)) (.frame 0 0x00420300080000000000000000) =
    some pending4 := by decide +kernel  -- V-I9
theorem test_ignored : events ready (.frame 0 0x00420300080102030405060708) =
      some [.dispatch 0 19 false, .cdsIgnored 0 .noSession] ∧
    events (one .default halfway) (.frame 0 0x0042471108FFFFFFFFFFFFFFFF) =
      some [.dispatch 0 19 false, .cdsIgnored 0 .hashMismatch] := by decide  -- V-R8 (a), (b)
theorem test_cdsShort : events (one .default halfway) (.frame 0 0x00420300050102030405000000) =
      some [.dispatch 0 19 false, .cdsIgnored 0 .shortLen] ∧
    pipe0 (one .default halfway) (.frame 0 0x00420300050102030405000000) = some halfway := by decide  -- V-R8 (c)

/-! ## The inflater, the control port, transmission -/

theorem test_inflDone : events (one .default pending4) (.inf 0x0100000000) = some [.cdsComplete 0 0 true] ∧
    events (one .default pending4) (.inf 0x0100000001) = some [.decompressError 0 .lengthMismatch] := by decide  -- V-I4, V-I5
theorem test_inflDone_err : events (one .default pending4) (.inf 0) = some [.decompressError 0 .inflateFailed] ∧
    events ready (.inf 0x010000001E) = some [.badRequest .inf] := by decide  -- V-I9, V-I7
/-- R67, R184, R220: the padding of a complete stream is readable; R63: no byte beyond it is; R73: none in `Accumulating`. -/
theorem test_consumerRead :
    let p := { halfway with cdsState := .complete, totalSize := 6 }
    consumerRead p 4 4 = some [0x14, 0x15, 0x16, 0x17] ∧ consumerRead p 4 5 = none ∧ consumerRead halfway 0 1 = none := by
  decide
/-- R67: the inflater reads parts of the bytes; R63: only valid ones; R218: only while its request is pending. -/
theorem test_inflaterRead : inflaterRead pending4 1 2 = some [0, 0] ∧ inflaterRead pending4 1 8 = none ∧
    inflaterRead { pending4 with inflState := .inflErr } 1 2 = none := by decide
theorem test_reset : stepOn (one .default halfway) (.ctl 0x10FFFF) = some State.reset := by decide  -- V-T1, V-T6
theorem test_pipeStart : pipe0 (one .default halfway) (.ctl 0x200000) = some openPipe ∧
    events ready (.ctl 0x200001) = some [.badRequest .ctl] := by decide  -- V-T2, V-T5
theorem test_pipeStop : pipe0 (one .default halfway) (.ctl 0x300000) = some { halfway with run := false } := by decide  -- V-T3
theorem test_cdsAck : pipe0 (one .default { halfway with cdsState := .complete }) (.ctl 0x400000) = some openPipe ∧
    events (one .default { halfway with cdsState := .complete }) (.ctl 0x400000) = some [.cdsAcked 0] := by decide  -- V-R12
theorem test_cdsAck_none : pipe0 (one .default pending4) (.ctl 0x400000) = some pending4 ∧
    events (one .default pending4) (.ctl 0x400000) = some [] := by decide  -- V-I3
theorem test_encode : (after (.encode 0 0x1E314711 3 0xAABBCC0000000000) State.reset).map (·.out.tx) =
      some (some ⟨0, 0x1E31471103AABBCC0000000000⟩) ∧
    (after (.encode 0 0x00314711 8 0x1234567801270010) (State.powerOn { Config.default with txIdFlags := 4 })).map (·.out.tx) =
      some (some ⟨0, 0x80314711081234567801270010⟩) := by decide  -- V-C6, V-C8
theorem test_encode_refused : (after (.encode 0 0 9 0) ready).map (fun t => (t.out.events, t.out.tx)) =
    some ([.badRequest .tx], none) := by decide  -- V-C9
theorem test_crc : crc16 [0x00, 0x00, 0x05] = 0x9C39 ∧ crc16 [1, 2, 3, 4, 5, 6, 7] = 0xD77D := by decide +kernel  -- 2.4

/-! ## Locks and clusters -/

theorem test_isinuse : (stepOn State.reset (.lk 0x0000500000)).map (·.out.lockResponse) = some (some ⟨true, false⟩) ∧
    (stepOn (withLock ⟨.free, loco 3⟩) (.lk 0x0000500000)).map (·.out.lockResponse) = some (some ⟨true, true⟩) := by
  decide  -- P5 step 1, V-L6
theorem test_reserve : (stepOn State.reset (.lk 0x4000570003)).map (fun t => (t.lock 5, t.out.events, t.out.lockResponse)) =
    some (⟨.reserved, loco 3⟩, [.lockChanged 5 .freeUnset ⟨.reserved, loco 3⟩], some ⟨true, false⟩) := by decide  -- P5 step 3
theorem test_reserve_other :
    (stepOn (withLock ⟨.reserved, loco 3⟩) (.lk 0x4000570004)).map (fun t => (t.locks, t.out.events, t.out.lockResponse)) =
    some ([(5, ⟨.reserved, loco 3⟩)], [.lockFail 5 .reserve (loco 4)], some ⟨false, false⟩) := by decide  -- P5 step 5
theorem test_lock : (stepOn (withLock ⟨.reserved, loco 3⟩) (.lk 0x8000570003)).map (fun t => (t.lock 5, t.out.events)) =
    some (⟨.hardLocked, loco 3⟩, [.lockChanged 5 ⟨.reserved, loco 3⟩ ⟨.hardLocked, loco 3⟩]) := by decide  -- P5 step 7
theorem test_lock_desync : (stepOn (withLock ⟨.softLocked, loco 3⟩) (.lk 0x8000570003)).map (·.out.lockResponse) =
      some (some ⟨false, false⟩) ∧
    (stepOn (withLock ⟨.reserved, .unset⟩) (.lk 0x8000500000)).map (·.out.lockResponse) = some (some ⟨false, false⟩) := by
  decide  -- V-L8, V-L7
theorem test_release : (stepOn (withLock ⟨.hardLocked, loco 3⟩) (.lk 0xC000500000)).map (fun t => (t.locks, t.out.events)) =
    some ([], [.lockChanged 5 ⟨.hardLocked, loco 3⟩ .freeUnset]) := by decide  -- V-L5
theorem test_release_free : (stepOn State.reset (.lk 0xC000500000)).map (fun t => (t.locks, t.out.events, t.out.lockResponse)) =
      some ([], [], some ⟨true, false⟩) ∧
    events State.reset (.lk 0xC000570003) = some [.lockFail 5 .release (loco 3)] := by decide  -- V-L3, V-L2
theorem test_lk_refused : (stepOn State.reset (.lk 0x4010070003)).map (fun t => (t.out.events, t.out.lockResponse)) =
      some ([.badRequest .lk], some ⟨false, false⟩) ∧
    events State.reset (.lk 0x4000570000) = some [.badRequest .lk] := by decide  -- V-L9
theorem test_canSetOrient :
    (stepOn { State.powerOn clusterCfg with locks := [(6, ⟨.hardLocked, loco 4⟩)] } (.cl 0x4000070003)).map
      (fun t => (t.orient, t.out.events, t.out.clusterOk)) = some ([], [], some false) := by decide  -- P6 step 4
theorem test_setOrient : (stepOn { State.powerOn clusterCfg with locks := [(5, ⟨.reserved, loco 3⟩)] } (.cl 0xC000070003)).map
      (fun t => (t.orient, t.clOrient, t.out.events, t.out.clusterOk)) =
    some ([(5, true), (6, true)], [(0, true)], [.orientChanged 0 true (loco 3)], some true) := by decide  -- P6 step 7
theorem test_setOrient_blocked :
    (stepOn { State.powerOn clusterCfg with locks := [(6, ⟨.hardLocked, loco 4⟩)] } (.cl 0xC000070003)).map
      (fun t => (t.orient, t.out.events, t.out.clusterOk)) =
    some ([], [.orientBlocked 0 true (loco 3)], some false) := by decide  -- P6 step 5
theorem test_cl_absent : (stepOn State.reset (.cl 0xC000070003)).map (fun t => (t.out.events, t.out.clusterOk)) =
    some ([.badRequest .cl], some false) := by decide  -- 2.7

/-! ## Witnesses: states that meet the invariants -/

theorem pipeInv_reset (cfg : Config) : PipeInv cfg .reset := by constructor <;> simp [Pipe.reset]

/-- A block with one pipeline that meets the invariants meets them. -/
theorem inv_one {cfg : Config} {p : Pipe} (hw : cfg.wf = true) (hl : cfg.lockInit = []) (hp : PipeInv cfg p)
    (hne : p ≠ .reset) : Machine.Inv (one cfg p) := by
  have h1 : 1 ≤ cfg.nConn := by
    simp only [Config.wf, Bool.and_eq_true, decide_eq_true_eq] at hw
    exact hw.1.1.1.1.1.1.1.1
  have hlocks : (one cfg p).locks = [] := by
    show (if cfg.hasLock then cfg.lockInit else []) = []
    rw [hl]
    split <;> rfl
  have hlock : ∀ i, (one cfg p).lock i = .freeUnset := fun i => by unfold State.lock; rw [hlocks]; rfl
  have hpipe : ∀ c, (one cfg p).pipe c = if c = 0 then p else .reset := fun c => by
    show (lookupCell [(0, p)] c).getD _ = _
    simp only [lookupCell]
    split <;> rfl
  refine ⟨hw, ?_, ?_, ?_, by rw [hlocks]; rfl, fun i _ => hlock i, ?_, rfl, rfl, fun _ _ => rfl, fun _ _ => rfl,
    fun _ _ _ => rfl⟩
  · show Table.wf .reset [(0, p)] = true
    simp [Table.wf, keysRise, hne]
  · intro c
    rw [hpipe]
    split
    · exact hp
    · exact pipeInv_reset cfg
  · intro c hc
    have hc : cfg.nConn ≤ c := hc
    rw [hpipe, if_neg (by omega)]
  · intro i
    rw [hlock]
    decide

theorem pipeInv_open (cfg : Config) : PipeInv cfg openPipe := by constructor <;> simp [openPipe, Pipe.reset]

theorem inv_ready : Machine.Inv ready := inv_one (by decide) rfl (pipeInv_open _) (by decide)

theorem inv_cluster : Machine.Inv (one clusterCfg openPipe) := inv_one (by decide) rfl (pipeInv_open _) (by decide)

theorem inv_announced : Machine.Inv (one .default (announced 8 0x4A1A)) := by
  refine inv_one (by decide) rfl ?_ (by decide)
  constructor <;> first | (intro h; exact absurd h (by decide)) | decide

theorem inv_pending : Machine.Inv (one .default pending4) := by
  refine inv_one (by decide) rfl ?_ (by decide)
  refine ⟨by decide, by decide, by decide, by decide, by decide, by decide, fun _ => ⟨by decide, by decide, [0, 0, 0, 0], by decide,
    by decide +kernel⟩, by decide, by decide, fun _ => ⟨by decide, by decide, 0, 0, 0, 0, by decide, by decide⟩, ?_, by decide, by decide,
    by decide⟩
  exact fun _ => ⟨by decide, by decide, by decide, by decide⟩

theorem ready_ready : Ready ready 0 := ⟨by decide, by decide, by decide, by decide⟩
theorem ready_one (p : Pipe) (h : p.run = true ∧ p.alive = true ∧ p.inflState ≠ .inflPending) : Ready (one .default p) 0 :=
  ⟨Nat.one_pos, h.1, h.2.1, h.2.2⟩

/-! ## Witnesses: words -/

theorem witness_DecodeEncode : (Instr.reserve 5 (loco 65535)).wf .default = true ∧ (Instr.illen 0 9).wf .default = true ∧
    (Instr.cdsTrig 0 { hs with hash := 0x0301 } 0x6C6F6B7300000000).wf triggerCfg = true ∧
    (Instr.cdsShort 0 hs ⟨5, 0x0102030405000000⟩).wf .default = true := by decide
theorem witness_DecodedWellFormed : decode .default (.lk 0x4000570003) = .ok (.reserve 5 (loco 3)) ∧
    decode .default (.rxu 0 1 13 0) = .ok (.rxBadsize 0 13) := by decide
theorem witness_FrameRoundTrip : ∀ i < 8, (3 : Fin 9).val ≤ i → payloadByte 0xAABBCC0000000000 i = 0#8 := by decide
theorem witness_WireRoundTrip : (wireByte 0xE031471103AABBCCDDEEFF1122 4).toNat ≤ 8 ∧
    (0x1E31471103AABBCC0000000000 : WireWord).extractLsb' 101 3 = 0#3 ∧
    ∀ i < 8, (wireByte 0x1E31471103AABBCC0000000000 4).toNat ≤ i →
      wireByte 0x1E31471103AABBCC0000000000 (5 + i) = 0#8 := by decide
theorem witness_DecodeBytes : 8 < (wireByte 0x00420300090000000000000000 4).toNat ∧
    (wireByte 0x00314711081234567801270010 4).toNat ≤ 8 := by decide
theorem witness_CommandMap : (wireByte 0x00024711000000000000000000 4).toNat ≤ 8 ∧
    (0x00024711000000000000000000 : WireWord).extractLsb' 89 8 = 0x01 ∧
    (0x00124711080000000000000000 : WireWord).extractLsb' 89 8 = 0x09 := by decide
/-- One word for each clause; for length 8, with and without a trigger. -/
theorem witness_StreamForms : ([0x0042030006000000107E660000, 0x004203000700000014E68C0100, 0x00420301086C6F6B7300000000,
      0x00420300050102030405000000, 0x00420300000000000000000000] : List WireWord).all (fun w =>
        w.extractLsb' 89 8 == 0x21#8 && decide ((wireByte w 4).toNat ≤ 8)) = true ∧
    mkFrame 0x21#8 (wireHeader 0x00420301086C6F6B7300000000) ⟨8, 0x6C6F6B7300000000⟩ ∈ triggerCfg.triggers ∧
    mkFrame 0x21#8 (wireHeader 0x00420301086C6F6B7300000000) ⟨8, 0x6C6F6B7300000000⟩ ∉ Config.default.triggers := by decide
theorem witness_IgnoredBits : let w : WireWord := 0xE031471103AABBCCDDEEFF1122
    let w' : WireWord := 0x0031471103AABBCC0000000000
    w ≠ w' ∧ w.extractLsb' 72 29 = w'.extractLsb' 72 29 ∧ wireByte w 4 = wireByte w' 4 ∧
      ∀ i < 8, i < (wireByte w 4).toNat → wireByte w (5 + i) = wireByte w' (5 + i) := by decide
theorem witness_HandlerNumbers : (0x09 : BitVec 8) ∉ ([0x00, 0x01, 0x02, 0x03, 0x04, 0x05, 0x06, 0x07, 0x08, 0x0B, 0x10, 0x11,
    0x18, 0x1B, 0x1D, 0x1E, 0x1F, 0x20, 0x21, 0x22] : List (BitVec 8)) := by decide

/-! ## Witnesses: steps -/

/-- A receive unit of a pipeline that is not started, then a lock word. -/
def waiting : State := { State.reset with pending := [.frame 0 0x00304711000000000000000000, .lk 0x4000570003] }

theorem waiting_held : NotEnabled waiting (.frame 0 0x00304711000000000000000000) :=
  ⟨0, rfl, by decide, fun h => absurd h.2.1 (by decide)⟩
theorem waiting_free : ¬NotEnabled waiting (.lk 0x4000570003) := fun ⟨_, h, _⟩ => by cases h

theorem witness_StepRunsDecoded : waiting.pending = [.frame 0 0x00304711000000000000000000] ++ .lk 0x4000570003 :: [] ∧
    (∀ x ∈ [PortWord.frame 0 0x00304711000000000000000000], NotEnabled waiting x) ∧
    ¬NotEnabled waiting (.lk 0x4000570003) ∧ decode waiting.cfg (.lk 0x4000570003) = .ok (.reserve 5 (loco 3)) :=
  ⟨rfl, by simpa using waiting_held, waiting_free, by decide⟩
theorem witness_HeldUnitsStay :
    (∀ w ∈ { waiting with pending := [PortWord.frame 0 0x00304711000000000000000000] }.pending, NotEnabled waiting w) ∧
    waiting.pending = [.frame 0 0x00304711000000000000000000] ++ .lk 0x4000570003 :: [] ∧
    ¬NotEnabled waiting (.lk 0x4000570003) ∧ ∃ t, step waiting = .next t :=
  ⟨by simpa using waiting_held, rfl, waiting_free, _, rfl⟩
theorem witness_PortOrder : (∃ t, step waiting = .next t) ∧ Port.lk ≠ .rxu := ⟨⟨_, rfl⟩, by decide⟩
/-- A malformed word for each port, a stray answer, and a step that emits the event. -/
theorem witness_RefusedExactly : Malformed .default (.rxu 0 5 0 0) ∧ Malformed .default (.rxu 1 0 0 0) ∧
    Malformed .default (.frame 1 0) ∧ Malformed .default (.lk 0x1000500000) ∧ Malformed .default (.lk 0x4010070003) ∧
    Malformed .default (.lk 0x4000570000) ∧ Malformed .default (.cl 0) ∧ Malformed .default (.ctl 0x500000) ∧
    Malformed .default (.ctl 0x200001) ∧ Malformed .default (.inf 0x20000000000) ∧ Malformed .default (.tx 0 0 9 0) ∧
    StrayAnswer ready (.inf 0) ∧ ¬NotEnabled ready (.ctl 0) ∧
    ∃ t, step { ready with pending := [.ctl 0] } = .next t ∧ .badRequest .ctl ∈ t.out.events := by
  refine ⟨?_, ?_, ?_, ?_, ?_, ?_, ?_, ?_, ?_, ?_, ?_, ?_, (fun ⟨_, h, _⟩ => by cases h), _, rfl, by decide⟩
  · exact .inl (by decide)
  · exact .inr (by decide)
  · show 1 ≤ 1
    decide
  · exact .inr (.inl (by decide))
  · exact .inr (.inr (.inl (by decide)))
  · exact .inr (.inr (.inr (by decide)))
  · exact .inl (by decide)
  · exact .inr (.inr (.inl (by decide)))
  · exact .inr (.inr (.inr (by decide)))
  · show 1 ≤ _
    decide
  · exact .inl (by decide)
  · show InflState.inflNone ≠ .inflPending
    decide
theorem witness_InvReset : clusterCfg.wf = true ∧ Config.default.wf = true := by decide
theorem witness_InvStep : Machine.Inv ready ∧ ∃ t, step { ready with pending := [.ctl 0x300000] } = .next t := ⟨inv_ready, _, rfl⟩
theorem witness_NoStop : Machine.Inv ready := inv_ready
theorem witness_ResetValues : Config.default.hasLock = true := rfl
theorem witness_ResetStep : ready.cfg.hasLock = true ∧ ready.cfg.hasCluster = false ∧
    (one clusterCfg openPipe).cfg.hasCluster = true ∧ (State.powerOn { Config.default with hasLock := false }).cfg.hasLock = false :=
  ⟨rfl, rfl, rfl, rfl⟩

/-! ## Witnesses: frames over all instructions -/

theorem witness_ConfigConstant : ∃ t, exec (.pipeStop 0) ready = .next t := ⟨_, rfl⟩
theorem witness_PipelinesPrivate : ∃ t, exec (.pipeStop 0) ready = .next t ∧ Instr.pipeStop 0 ≠ .reset ∧
    ∀ c', (Instr.pipeStop 0).pipeOf = some c' → c'.toNat ≠ 1 := ⟨_, rfl, by decide, fun c' h => by cases h; decide⟩
theorem witness_IndependentCommute : Machine.Inv ready ∧ (Instr.pipeStop 0).independent (.pipeStop 1) ∧
    (Instr.reserve 5 (loco 3)).independent (.reserve 6 (loco 4)) ∧ (Instr.rxTimeout 0).independent (.isinuse 5) :=
  ⟨inv_ready, .inl ⟨0, 1, rfl, rfl, by decide⟩, .inr (.inl ⟨5, 6, rfl, rfl, by decide⟩), .inr (.inr ⟨0, 5, rfl, rfl⟩)⟩
theorem witness_LockAndOrientWriters :
    (∃ t, exec (.reserve 5 (loco 3)) ready = .next t ∧ t.lock 5 ≠ ready.lock 5) ∧
    ∃ t, exec (.setOrient 0 true (loco 3)) (one clusterCfg openPipe) = .next t ∧
      t.orientOf 6 ≠ (one clusterCfg openPipe).orientOf 6 ∧ t.clOrientOf 0 ≠ (one clusterCfg openPipe).clOrientOf 0 :=
  ⟨⟨_, rfl, by decide⟩, _, rfl, by decide, by decide⟩
theorem witness_RunAliveWriters : (∃ t, exec (.pipeStop 0) ready = .next t ∧ (t.pipe 0).run ≠ (ready.pipe 0).run) ∧
    ∃ t, exec (.rxError 0) ready = .next t ∧ (t.pipe 0).alive ≠ (ready.pipe 0).alive :=
  ⟨⟨_, rfl, by decide⟩, _, rfl, by decide⟩
theorem witness_StoredBytes : ∃ t, exec (.cdsData 0 hs 0x1011121314151617) (one .default (announced 16 0x7E66)) = .next t ∧
    Memory.read (t.pipe 0).buf 0 = some 0x10 ∧ Memory.read (t.pipe 0).buf 7 = some 0x17 := ⟨_, rfl, by decide, by decide⟩

/-! ## Witnesses: frames and streams -/

theorem witness_SystemRouted : Ready ready 0 ∧ (⟨4, 0x1122334400000000⟩ : Body).canonical = true ∧
    (⟨4, 0x1122334400000000⟩ : Body).len.val < 5 := ⟨ready_ready, by decide, by decide⟩
theorem witness_DriveCommandsRouted : Ready ready 0 ∧ (Instr.discovery 0 hd b0, (2 : BitVec 5), (0x01 : BitVec 8)) ∈
    driveRoutes 0 hd b0 := ⟨ready_ready, by decide⟩
theorem witness_OtherCommandsRouted : Ready ready 0 ∧ (Instr.vendor22 0 hd b0, (20 : BitVec 5), (0x22 : BitVec 8)) ∈
    otherRoutes 0 hd b0 := ⟨ready_ready, by decide⟩
theorem witness_DroppedFrames : Ready ready 0 := ready_ready
/-- The three ways a frame can begin: a bad length, an unknown command, a handler; and the stream's handler 19. -/
theorem witness_FirstEvent : Machine.Inv ready ∧ Ready ready 0 ∧ 8 < (wireByte 0x01FF4711090000000000000000 4).toNat ∧
    handlerOf ((0x00124711080000000000000000 : WireWord).extractLsb' 89 8) = 0 ∧
    handlerOf ((0x00304711000000000000000000 : WireWord).extractLsb' 89 8) = 13 ∧
    handlerOf ((0x00420300081011121314151617 : WireWord).extractLsb' 89 8) = 19 :=
  ⟨inv_ready, ready_ready, by decide, by decide, by decide, by decide⟩
theorem witness_RxFrameRuns : Machine.Inv ready := inv_ready
theorem witness_RxNoFrame : Ready ready 0 := ready_ready
theorem witness_RxDead : Ready ready 0 ∧
    (Instr.rxClosed 0, DeadKind.closed) ∈ [(Instr.rxClosed 0, DeadKind.closed), (Instr.rxError 0, DeadKind.error)] ∧
    (Instr.rxError 0, DeadKind.error) ∈ [(Instr.rxClosed 0, DeadKind.closed), (Instr.rxError 0, DeadKind.error)] :=
  ⟨ready_ready, by decide, by decide⟩
/-- `MAX_TOTAL` itself is accepted, one above it is not (V-R11). -/
theorem witness_AnnounceOpens : Ready (one { Config.default with maxTotal := 65535 } halfway) 0 ∧
    (65535 : BitVec 32).toNat ≤ (one { Config.default with maxTotal := 65535 } halfway).cfg.maxTotal :=
  ⟨⟨by decide, rfl, rfl, by decide⟩, by decide⟩
theorem witness_AnnounceRefused : Ready (one { Config.default with maxTotal := 65535 } halfway) 0 ∧
    (one { Config.default with maxTotal := 65535 } halfway).cfg.maxTotal < (65536 : BitVec 32).toNat :=
  ⟨⟨by decide, rfl, rfl, by decide⟩, by decide⟩
theorem witness_TriggerLatches : Ready (one .default halfway) 0 := ready_one _ ⟨rfl, rfl, by decide⟩
theorem witness_StreamFramesIgnored : Ready ready 0 ∧ ¬OpenFor (ready.pipe 0) 0x0300 ∧ Ready (one .default halfway) 0 ∧
    ¬OpenFor ((one .default halfway).pipe 0) 0x4711 :=
  ⟨ready_ready, fun h => absurd h.1 (by decide), ready_one _ ⟨rfl, rfl, by decide⟩, fun h => absurd h.2 (by decide)⟩
theorem witness_DataAppended : Ready (one .default (announced 16 0x7E66)) 0 ∧ OpenFor (announced 16 0x7E66) 0x0300 ∧
    (announced 16 0x7E66).rxCount.toNat + 8 < (announced 16 0x7E66).totalSize.toNat :=
  ⟨ready_one _ ⟨rfl, rfl, by decide⟩, ⟨.inl rfl, rfl⟩, by decide⟩

/-- P1: the sixteen bytes. -/
def stream16 : List Byte :=
  [0x10, 0x11, 0x12, 0x13, 0x14, 0x15, 0x16, 0x17, 0x18, 0x19, 0x1A, 0x1B, 0x1C, 0x1D, 0x1E, 0x1F]

theorem last_half : LastFrame halfway 0x18191A1B1C1D1E1F stream16 := ⟨by decide, by decide, by decide, by decide⟩
/-- V-R3 in small: a last frame of which only the first byte belongs to the stream; and the empty stream of V-R4. -/
theorem last_short : LastFrame (announced 1 0xF1D1) 0x01EEEEEEEEEEEEEE [1] ∧ LastFrame (announced 0 0xFFFF) 0 [] :=
  ⟨⟨by decide, by decide, by decide, by decide⟩, ⟨by decide, by decide, by decide, by decide⟩⟩
theorem witness_DataCompletesStored : Ready (one .default halfway) 0 ∧ OpenFor halfway 0x0300 ∧
    LastFrame halfway 0x18191A1B1C1D1E1F stream16 ∧ crc16 stream16 = halfway.crcAnn ∧ stream16.head? ≠ some 0#8 :=
  ⟨ready_one _ ⟨rfl, rfl, by decide⟩, ⟨.inr rfl, rfl⟩, last_half, by decide +kernel, by decide⟩
theorem witness_DataCompletesStored_empty : OpenFor (announced 0 0xFFFF) 0x0300 ∧ LastFrame (announced 0 0xFFFF) 0 [] ∧
    crc16 [] = (announced 0 0xFFFF).crcAnn ∧ ([] : List Byte).head? ≠ some 0#8 :=
  ⟨⟨.inl rfl, rfl⟩, last_short.2, by decide, by decide⟩
theorem witness_DataCrcError : Ready (one .default (announced 1 0xABCD)) 0 ∧ OpenFor (announced 1 0xABCD) 0x0300 ∧
    LastFrame (announced 1 0xABCD) 0x01EEEEEEEEEEEEEE [1] ∧ crc16 [1] ≠ (announced 1 0xABCD).crcAnn :=
  ⟨ready_one _ ⟨rfl, rfl, by decide⟩, ⟨.inl rfl, rfl⟩, ⟨by decide, by decide, by decide, by decide⟩, by decide +kernel⟩
theorem witness_DataStartsInflate : Ready (one .default (announced 4 0x84C0)) 0 ∧ OpenFor (announced 4 0x84C0) 0x0300 ∧
    LastFrame (announced 4 0x84C0) 0 (0#8 :: 0#8 :: 0#8 :: 0#8 :: []) ∧
    crc16 (0#8 :: 0#8 :: 0#8 :: 0#8 :: []) = (announced 4 0x84C0).crcAnn :=
  ⟨ready_one _ ⟨rfl, rfl, by decide⟩, ⟨.inl rfl, rfl⟩, ⟨by decide, by decide, by decide, by decide⟩, by decide +kernel⟩
theorem witness_DataShortPrefix : Ready (one .default (announced 3 0x9C39)) 0 ∧ OpenFor (announced 3 0x9C39) 0x0300 ∧
    LastFrame (announced 3 0x9C39) 0x0000050000000000 (0#8 :: [0, 5]) ∧
    crc16 (0#8 :: [0, 5]) = (announced 3 0x9C39).crcAnn ∧ ([0, 5] : List Byte).length < 3 :=
  ⟨ready_one _ ⟨rfl, rfl, by decide⟩, ⟨.inl rfl, rfl⟩, ⟨by decide, by decide, by decide, by decide⟩, by decide +kernel, by decide⟩
theorem witness_InflateAnswer : (0 : PipeId).toNat < (one .default pending4).cfg.nConn ∧
    ((one .default pending4).pipe 0).inflState = .inflPending ∧ (ready.pipe 0).inflState ≠ .inflPending := by decide
/-- The three cases: nothing to acknowledge, a complete stream, an inflation under way. -/
theorem witness_AckEffect : (0 : PipeId).toNat < ready.cfg.nConn ∧ (ready.pipe 0).cdsState = .idle ∧
    pending4.cdsState = .complete ∧ pending4.inflState = .inflPending := by decide
theorem witness_StartStop : (0 : PipeId).toNat < ready.cfg.nConn ∧ ¬(1 : PipeId).toNat < ready.cfg.nConn := by decide

/-! ## Witnesses: locks, clusters, the rest -/

theorem witness_LockPortTable : ready.cfg.hasLock = true ∧ (255 : BitVec 16).toNat < ready.cfg.nItems ∧
    (loco 3).illFormed = false ∧ ObjectId.unset.illFormed = false := by decide
/-- A succeeded `RESERVE`, and an empty and a non-empty sequence after it. -/
theorem witness_MutualExclusion : (loco 3).isSet = true ∧
    (∃ t, exec (.reserve 5 (loco 3)) ready = .next t ∧ t.out.lockResponse = some ⟨true, false⟩) ∧
    (∃ t, ((withLock ⟨.reserved, loco 3⟩).lock (5 : BitVec 16).toNat).owner = loco 3 ∧
      execAll [.lock 5 (loco 3), .release 5 (loco 4)] (withLock ⟨.reserved, loco 3⟩) = .next t ∧
      Instr.reset ∉ [Instr.lock 5 (loco 3), .release 5 (loco 4)] ∧
      Instr.release 5 (loco 3) ∉ [Instr.lock 5 (loco 3), .release 5 (loco 4)] ∧
      Instr.release 5 .unset ∉ [Instr.lock 5 (loco 3), .release 5 (loco 4)]) ∧
    (loco 4).isSet = true ∧ loco 4 ≠ loco 3 :=
  ⟨by decide, ⟨_, rfl, by decide⟩, ⟨_, by decide, rfl, by decide, by decide, by decide⟩, by decide, by decide⟩
theorem witness_LockInvariant : (∃ t, exec (.reserve 5 (loco 3)) ready = .next t ∧ Instr.reserve 5 (loco 3) ≠ .reset ∧
      consistentEntry (ready.lock 5)) ∧
    lockInitConsistent { Config.default with lockInit := [(5, ⟨.softLocked, loco 3⟩)] } ∧ Config.default.lockInit = [] ∧
    ∃ t, Reaches (poweredWith .default [.lk 0x4000570003]) t ∧ t.lock 5 = ⟨.reserved, loco 3⟩ := by
  refine ⟨⟨_, rfl, by decide, ?_⟩, ?_, rfl, _, .step .refl rfl, by decide⟩
  · show LockState.free ≠ .free ↔ false = true
    decide
  · intro e he
    cases he with
    | head => show LockState.softLocked ≠ .free ↔ true = true; decide
    | tail _ h => cases h
theorem witness_CanSetAnswers : ClusterRequest (one clusterCfg openPipe) 0 (loco 3) := ⟨rfl, by decide, by decide⟩

/-- P6 before step 4: item 6 is held by another. -/
def p6 : State := { State.powerOn clusterCfg with locks := [(6, ⟨.hardLocked, loco 4⟩)] }

theorem p6_held : HeldByOther p6 6 (loco 3) := ⟨by decide, by decide⟩
theorem witness_SetOrientEffect : ClusterRequest p6 0 (loco 3) ∧ false = p6.clOrientOf 0 ∧ true ≠ p6.clOrientOf 0 ∧
    ¬Unblocked p6 0 true (loco 3) ∧ Unblocked (one clusterCfg openPipe) 0 true (loco 3) := by
  refine ⟨⟨rfl, by decide, by decide⟩, by decide, by decide, fun h => h (6, true) (by decide) ⟨p6_held, by decide⟩, ?_⟩
  intro m _ h
  exact absurd rfl h.1.1
theorem witness_ClusterConsistency : Machine.Inv (one clusterCfg openPipe) ∧
    ∃ t, exec (.setOrient 0 true (loco 3)) (one clusterCfg openPipe) = .next t ∧ t.out.clusterOk = some true ∧
      (6, true) ∈ clusterMembersOf (one clusterCfg openPipe).cfg (0 : BitVec 16).toNat :=
  ⟨inv_cluster, _, rfl, by decide, by decide⟩
/-- A change that succeeds although a non-member is held by another, and one that finds nothing to change. -/
theorem witness_HolderSafety :
    (∃ t, exec (.setOrient 0 true (loco 3)) { p6 with locks := [(7, ⟨.hardLocked, loco 4⟩)] } = .next t ∧
      t.out.clusterOk = some true ∧ HeldByOther { p6 with locks := [(7, ⟨.hardLocked, loco 4⟩)] } 7 (loco 3)) ∧
    ∃ t, exec (.setOrient 0 false (loco 3)) p6 = .next t ∧ t.out.clusterOk = some true ∧ HeldByOther p6 6 (loco 3) :=
  ⟨⟨_, rfl, by decide, by decide, by decide⟩, _, rfl, by decide, p6_held⟩
theorem witness_EncodeSends : (0 : PipeId).toNat < State.reset.cfg.nConn ∧ (8 : BitVec 4).toNat ≤ 8 ∧ 8 < (9 : BitVec 4).toNat := by
  decide
theorem witness_CrcLaws : ([1, 2] : List Byte).length = [3, 4].length ∧ (0x76 : Byte) ≠ 0x77 := by decide
theorem witness_InflationStable : (((one .default pending4).pipe 0).inflState = .inflPending) ∧
    (∃ t, exec (.pipeStop 0) (one .default pending4) = .next t ∧ ∀ ok n, Instr.pipeStop 0 ≠ .inflDone 0 ok n) ∧
    ∃ t, exec (.inflDone 0 true 0) (one .default pending4) = .next t :=
  ⟨by decide, ⟨_, rfl, by simp⟩, _, rfl⟩
/-- One move of each kind the statement lists. -/
theorem witness_CdsTransitions :
    (∃ t, exec (.cdsAnn6 0 hs 16 0x7E66) ready = .next t ∧ (t.pipe 0).cdsState = .announced) ∧
    (∃ t, exec (.cdsData 0 hs 0) (one .default (announced 16 0x7E66)) = .next t ∧ (t.pipe 0).cdsState = .accumulating) ∧
    ∃ t, exec (.pipeStart 0) (one .default halfway) = .next t ∧ (t.pipe 0).cdsState = .idle :=
  ⟨⟨_, rfl, by decide⟩, ⟨_, rfl, by decide⟩, _, rfl, by decide⟩
/-- A stored stream (V-R6) and a compressed one (V-I9 with an answer of length 0). -/
theorem witness_DeliveredAtComplete : Machine.Inv (one .default (announced 8 0x4A1A)) ∧
    (∃ t, exec (.cdsData 0 hs 0x1011121314151617) (one .default (announced 8 0x4A1A)) = .next t ∧
      .cdsComplete 0 8 false ∈ t.out.events) ∧
    Machine.Inv (one .default pending4) ∧
    ∃ t, exec (.inflDone 0 true 0) (one .default pending4) = .next t ∧ .cdsComplete 0 0 true ∈ t.out.events := by
  obtain ⟨t, h, ht⟩ := of_after (i := .cdsData 0 hs 0x1011121314151617) (s := one .default (announced 8 0x4A1A))
    (P := fun t => decide (.cdsComplete 0 8 false ∈ t.out.events)) (by decide +kernel)
  exact ⟨inv_announced, ⟨t, h, of_decide_eq_true ht⟩, inv_pending, _, rfl, by decide⟩

end Sys2Proof.Tests
end

section
/-! SUPPORT. 00_scope.md: a step runs the instruction of the first enabled word (R15, R70), and no transaction can stop the
block (R15, R271). A fault could come from a data frame only (`bufferRange`, `bufferRead`); the invariants of its pipeline
exclude both, because every byte below `rx_count` holds a value and an open session has room for eight more. -/

namespace Sys2Proof.Machine

open Host (Outcome)

/-! ## Taking the first enabled word -/

/-- Held words are passed over and the first word that is not held is taken (log 1). -/
theorem takeFirst_append {s : State} {before after : List PortWord} {w : PortWord}
    (hb : ∀ x ∈ before, s.held x = true) (hw : s.held w = false) :
    takeFirst s (before ++ w :: after) = some (w, before ++ after) := by
  induction before with
  | nil => simp [takeFirst, hw]
  | cons x before ih =>
    obtain ⟨hx, hb⟩ := List.forall_mem_cons.1 hb
    simp [takeFirst, hx, ih hb]

/-- The word a state takes, in the statements' terms. -/
theorem takeWord_eq {s : State} {before after : List PortWord} {w : PortWord} (hp : s.pending = before ++ w :: after)
    (hb : ∀ x ∈ before, NotEnabled s x) (hw : ¬NotEnabled s w) :
    s.takeWord = some (w, { s with pending := before ++ after }) := by
  have hfirst : takeFirst s s.pending = some (w, before ++ after) := by
    rw [hp]
    refine takeFirst_append (fun x hx => (held_iff s x).2 (hb x hx)) ?_
    rwa [← Bool.not_eq_true, held_iff]
  simp [State.takeWord, hfirst]

/-- Settles O11: `takeWord` takes the first enabled word, whatever stands before and after it. -/
theorem stepRunsDecoded : Obligations.StepRunsDecoded := by
  intro s before after w i hp hb hw hd
  simp only [step, takeWord_eq hp hb hw, hd]

/-! ## Buffers without a gap -/

/-- R61: every byte below `rx_count` holds a value. -/
def Pipe.Filled (p : Pipe) : Prop := ∀ a < p.rxCount.toNat, ∃ b, Memory.read p.buf a = some b

/-- A listed key has a value. -/
theorem lookupCell_of_mem_keys {α : Type} {m : List (Nat × α)} {k : Nat} (h : k ∈ m.map Prod.fst) :
    ∃ v, lookupCell m k = some v := by
  induction m with
  | nil => simp at h
  | cons e m ih =>
    by_cases hk : k = e.1
    · exact ⟨e.2, by simp [lookupCell, hk]⟩
    · obtain ⟨v, hv⟩ := ih (by simpa [hk] using h)
      exact ⟨v, by simpa [lookupCell, hk] using hv⟩

theorem PipeInv.filled {cfg : Config} {p : Pipe} (h : PipeInv cfg p) : p.Filled := fun a ha =>
  lookupCell_of_mem_keys (by rw [h.bufKeys]; exact List.mem_range.2 ha)

/-- A range of addresses that all hold a value can be read. -/
theorem Memory.readBytes_of_held {m : List Host.Cell} {a n : Nat}
    (h : ∀ j, a ≤ j → j < a + n → ∃ b, Memory.read m j = some b) : ∃ d, Memory.readBytes m a n = some d := by
  induction n generalizing a with
  | zero => exact ⟨[], rfl⟩
  | succ n ih =>
    obtain ⟨b, hb⟩ := h a le_rfl (by omega)
    obtain ⟨bs, hbs⟩ := ih (a := a + 1) fun j h1 h2 => h j (by omega) (by omega)
    exact ⟨b :: bs, by simp [Memory.readBytes, hb, hbs]⟩

/-- R63: in a filled buffer every read below `rx_count` answers. -/
theorem Pipe.Filled.exists_memRead {p : Pipe} (h : p.Filled) {a n : Nat} (hn : a + n ≤ p.rxCount.toNat) :
    ∃ d, memRead p a n = some d ∧ d.length = n := by
  obtain ⟨d, hd⟩ := Memory.readBytes_of_held (m := p.buf) (a := a) (n := n) fun j _ hj => h j (by omega)
  exact ⟨d, by simp [memRead, hn, hd], (Memory.readBytes_eq_some.1 hd).1⟩

/-- R31: the 33 bits of `rx_count` hold the count after a write that starts within `total_size`. -/
theorem rxCount_add_eight {p : Pipe} (h : p.rxCount.toNat ≤ p.totalSize.toNat) :
    (p.rxCount + 8).toNat = p.rxCount.toNat + 8 := by
  have := p.totalSize.isLt
  rw [BitVec.toNat_add]
  change (p.rxCount.toNat + 8) % 2 ^ 33 = _
  omega

/-- R62: a data frame's write within `total_size` keeps the buffer filled. -/
theorem Pipe.Filled.of_memWrite8 {p q : Pipe} (h : p.Filled) {d : BitVec 64} (hw : memWrite8 p d = some q) : q.Filled := by
  obtain ⟨hle, rfl⟩ := memWrite8_eq_some hw
  intro a ha
  rw [rxCount_add_eight hle] at ha
  rw [Memory.read_writeBytes, payloadBytes_length]
  split
  · exact ⟨_, List.getElem?_eq_getElem (by rw [payloadBytes_length]; omega)⟩
  · exact h a (by omega)

/-! ## Stream operations answer -/

/-- R31: a session is open only while `rx_count` has not passed `total_size`. -/
theorem PipeInv.rxCount_le {cfg : Config} {p : Pipe} (h : PipeInv cfg p) (ho : p.sessionOpen = true) :
    p.rxCount.toNat ≤ p.totalSize.toNat := by
  simp only [Pipe.sessionOpen, Bool.or_eq_true, beq_iff_eq] at ho
  rcases ho with ho | ho
  · simp [(h.announced ho).1]
  · obtain ⟨-, hlt, -⟩ := h.accumulating ho
    exact hlt.le

/-- R217: with four bytes received the expected length can be read. -/
theorem startInflate_answers (c : PipeId) {p : Pipe} (h : p.Filled) (h4 : 4 ≤ p.rxCount.toNat) :
    ∃ e, startInflate c p = .ok e := by
  obtain ⟨d, hd, hl⟩ := h.exists_memRead (a := 0) (n := 4) (by omega)
  obtain ⟨b0, b1, b2, b3, rfl⟩ := List.length_eq_four.1 hl
  simp [startInflate, hd]

/-- R216: with the whole stream received its first byte can be read. -/
theorem detectCompressed_answers (c : PipeId) {p : Pipe} (h : p.Filled) (hle : p.totalSize.toNat ≤ p.rxCount.toNat) :
    ∃ e, detectCompressed c p = .ok e := by
  unfold detectCompressed
  by_cases h1 : 1 ≤ p.totalSize.toNat
  · obtain ⟨d, hd, hl⟩ := h.exists_memRead (a := 0) (n := 1) (by omega)
    obtain ⟨b, rfl⟩ := List.length_eq_one_iff.1 hl
    simp only [if_pos h1, hd]
    split
    · split
      · exact ⟨_, rfl⟩
      · exact startInflate_answers c (p := { p with compressed := true }) h (by simp only; omega)
    · exact ⟨_, rfl⟩
  · exact ⟨_, if_neg h1⟩

/-- R183: a completion whose bytes are all received answers. -/
theorem complete_answers (c : PipeId) {p : Pipe} (h : p.Filled) (hle : p.totalSize.toNat ≤ p.rxCount.toNat) :
    ∃ e, complete c p = .ok e := by
  obtain ⟨d, hd, -⟩ := h.exists_memRead (a := 0) (n := p.totalSize.toNat) (by omega)
  simp only [complete, hd]
  split
  · exact detectCompressed_answers c (p := { p with crcCalc := crc16 d, cdsState := .complete }) h hle
  · exact ⟨_, rfl⟩

theorem appendData_answers (c : PipeId) {p : Pipe} (h : p.Filled) : ∃ e, appendData c p = .ok e := by
  unfold appendData
  by_cases hle : p.totalSize.toNat ≤ p.rxCount.toNat
  · obtain ⟨r, hr⟩ := complete_answers c h hle
    simp [hle, hr]
  · simp [hle]

/-- R178 to R180: a data frame answers, in every session state. -/
theorem dataFrame_answers {cfg : Config} {p : Pipe} (h : PipeInv cfg p) (c : PipeId) (hash : BitVec 16)
    (data : BitVec 64) : ∃ e, dataFrame c hash data p = .ok e := by
  unfold dataFrame
  by_cases ho : p.sessionOpen = true
  · obtain ⟨q, hq⟩ : ∃ q, memWrite8 p data = some q := ⟨_, if_pos (h.rxCount_le ho)⟩
    simp only [if_pos ho, hq]
    split
    · have hf : q.Filled := h.filled.of_memWrite8 hq
      exact appendData_answers c (p := { q with cdsState := .accumulating }) hf
    · exact ⟨_, rfl⟩
  · exact ⟨_, if_neg ho⟩

/-- R171: only the data frame among the stream frames could fail to answer. -/
theorem cdsStep_answers {cfg : Config} {p : Pipe} (h : PipeInv cfg p) (c : PipeId) (f : Frame) :
    ∃ e, cdsStep cfg c f p = .ok e := by
  unfold cdsStep
  split
  · exact ⟨_, rfl⟩
  · exact ⟨_, rfl⟩
  · split
    · exact ⟨_, rfl⟩
    · exact dataFrame_answers h c f.hash f.payload
  · exact ⟨_, rfl⟩

/-! ## Instructions answer -/

theorem finishPipe_answers (s : State) (c : PipeId) {r : Except Fault PipeEffect} (h : ∃ e, r = .ok e) :
    ∃ t, s.finishPipe c r = .next t := by
  obtain ⟨e, rfl⟩ := h
  exact ⟨_, rfl⟩

/-- R111: behind the enable condition only the meaning of the unit could stop the block. -/
theorem rxGate_answers {c : PipeId} {s : State} {k : State → Outcome State Fault Refusal}
    (h : ∃ t, k s.begin = .next t) : ∃ t, rxGate c s k = .next t := by
  rcases rxGate_cases c s k with ⟨-, -, hk⟩ | ⟨-, -, hk⟩ | ⟨-, hk⟩
  · rwa [hk]
  · exact ⟨_, hk⟩
  · exact ⟨_, hk⟩

theorem routeOnly_answers (c : PipeId) (n : BitVec 5) (f : Frame) (s : State) : ∃ t, routeOnly c n f s = .next t :=
  rxGate_answers ⟨_, rfl⟩

theorem streamFrame_answers {c : PipeId} {f : Frame} {op : Config → Pipe → Except Fault PipeEffect} {s : State}
    (h : ∃ e, op s.cfg (s.pipe c.toNat) = .ok e) : ∃ t, streamFrame c f op s = .next t :=
  rxGate_answers (finishPipe_answers _ c h)

theorem controlPipe_answers (c : PipeId) (f : Pipe → PipeEffect) (s : State) : ∃ t, controlPipe c f s = .next t := by
  rcases controlPipe_cases c f s with ⟨-, h⟩ | ⟨-, h⟩ <;> exact ⟨_, h⟩

/-- R130: `dispatch` answers for every command. -/
theorem dispatch_answers {s : State} {c : PipeId} (h : PipeInv s.cfg (s.pipe c.toNat)) (f : Frame) :
    ∃ t, dispatch c f s = .next t := by
  rcases dispatch_cases c f s with ⟨-, hd⟩ | ⟨-, hd⟩ | ⟨-, -, hd⟩
  · exact ⟨_, hd⟩
  · rw [hd]
    exact finishPipe_answers _ c (cdsStep_answers h c f)
  · exact ⟨_, hd⟩

/-- R115: the 13 bytes of an RX unit answer, decodable or not. -/
theorem receiveFrame_answers {s : State} {c : PipeId} (h : PipeInv s.cfg (s.pipe c.toNat)) (w : WireWord) :
    ∃ t, receiveFrame c w s = .next t := by
  unfold receiveFrame
  split
  · exact ⟨_, rfl⟩
  · exact dispatch_answers h _

theorem execIsinuse_answers (item : BitVec 16) (s : State) : ∃ t, execIsinuse item s = .next t := by
  unfold execIsinuse
  split <;> exact ⟨_, rfl⟩

theorem execCanSetOrient_answers (k : BitVec 16) (o : Bool) (loco : ObjectId) (s : State) :
    ∃ t, execCanSetOrient k o loco s = .next t := by
  unfold execCanSetOrient
  split <;> exact ⟨_, rfl⟩

theorem execSetOrient_answers (k : BitVec 16) (o : Bool) (loco : ObjectId) (s : State) :
    ∃ t, execSetOrient k o loco s = .next t := by
  unfold execSetOrient
  split_ifs <;> exact ⟨_, rfl⟩

theorem execInflDone_answers (c : PipeId) (ok : Bool) (outLen : BitVec 32) (s : State) :
    ∃ t, execInflDone c ok outLen s = .next t := by
  unfold execInflDone
  split <;> exact ⟨_, rfl⟩

theorem execEncode_answers (c : PipeId) (id : BitVec 29) (len : BitVec 4) (payload : BitVec 64) (s : State) :
    ∃ t, execEncode c id len payload s = .next t := by
  unfold execEncode
  split_ifs <;> exact ⟨_, rfl⟩

/-- R15: where the pipelines' invariants hold, every instruction answers a next state. Only `CDS.DATA` and `RX.FRAME` need
the invariants. -/
theorem exec_answers {s : State} (h : ∀ c, PipeInv s.cfg (s.pipe c)) (i : Instr) : ∃ t, exec i s = .next t := by
  unfold exec
  cases i with
  | system c | discovery c | bind c | verify c | speed c | direction c | function c | readConfig c | writeConfig c
  | accSwitch c | s88A c | s88B c | ping c | bootloader c | cfgStatus c | vendor1E c | vendor1F c | vendor20 c
  | vendor22 c => exact routeOnly_answers c _ _ s
  | cdsAnn6 | cdsAnn7 | cdsTrig | cdsShort => exact streamFrame_answers ⟨_, rfl⟩
  | cdsData c hd data => exact streamFrame_answers (dataFrame_answers (h _) c hd.hash data)
  | rxFrame c w => exact rxGate_answers (receiveFrame_answers (s := s.begin) (h _) w)
  | illen | unknown | rxBadsize | rxTimeout | rxClosed | rxError => exact rxGate_answers ⟨_, rfl⟩
  | isinuse item => exact execIsinuse_answers item s
  | reserve | lock | release | reset => exact ⟨_, rfl⟩
  | canSetOrient k o loco => exact execCanSetOrient_answers k o loco s
  | setOrient k o loco => exact execSetOrient_answers k o loco s
  | pipeStart c | pipeStop c | cdsAck c => exact controlPipe_answers c _ s
  | inflDone c ok outLen => exact execInflDone_answers c ok outLen s
  | encode c id len payload => exact execEncode_answers c id len payload s

/-- Settles O17: a step idles, runs one instruction or refuses one word; the taken word's removal from the waiting ones
leaves every pipeline's invariant in place. -/
theorem noStop : Obligations.NoStop := by
  intro s hs
  refine ⟨?_, exec_answers hs.pipes⟩
  rcases step_cases s with ⟨-, h⟩ | ⟨before, w, after, -, -, -, ⟨i, -, h⟩ | ⟨r, -, h⟩⟩
  · exact ⟨_, h⟩
  · rw [h]
    exact exec_answers (s := { s with pending := before ++ after }) hs.pipes i
  · exact ⟨_, h⟩

end Sys2Proof.Machine
end

section
/-! SUPPORT. What a transaction can do to the state, said once: `Effect` lists the moves and `exec_effect` says that every
instruction makes one of them. Who writes a register (10_state.md), and that every step keeps the invariants, are then
case analyses over the moves and not over the instructions. -/

namespace Sys2Proof.Machine

open Host (Outcome)

/-! ## The moves -/

/-- R171 to R180: what a frame of the config-data stream can do to its pipeline `p`. -/
inductive StreamMove (cfg : Config) (c : PipeId) (p : Pipe) : PipeEffect → Prop where
  | announce (hash : BitVec 16) (total : BitVec 32) (crc : BitVec 16) (flag : Option Byte) :
      StreamMove cfg c p (announce cfg c hash total crc flag p)
  | trigger (name : BitVec 64) : StreamMove cfg c p (trigger c name p)
  | data {hash : BitVec 16} {d : BitVec 64} {e : PipeEffect} (h : dataFrame c hash d p = .ok e) : StreamMove cfg c p e
  | ignore (r : IgnoreReason) : StreamMove cfg c p (ignoreFrame c r p)

/-- What an instruction can do to pipeline `c`, which holds `p` before it. -/
inductive PipeMove (cfg : Config) (c : PipeId) (p : Pipe) : Instr → Pipe → Prop where
  | stream {i : Instr} {e : PipeEffect} (hi : i.rxPipe = some c) (h : StreamMove cfg c p e) : PipeMove cfg c p i e.pipe
  | closed : PipeMove cfg c p (.rxClosed c) { p with alive := false }
  | error : PipeMove cfg c p (.rxError c) { p with alive := false }
  | start : PipeMove cfg c p (.pipeStart c) (startPipe p).pipe
  | stop : PipeMove cfg c p (.pipeStop c) (stopPipe p).pipe
  | ack : PipeMove cfg c p (.cdsAck c) (ackPipe c p).pipe
  | answer (ok : Bool) (outLen : BitVec 32) (h : p.inflState = .inflPending) :
      PipeMove cfg c p (.inflDone c ok outLen) (inflateAnswer c ok outLen p).pipe

/-- R232 to R234: the rule of a lock operation on an entry. -/
def lockRule : LockOp → ObjectId → LockEntry → Option LockEntry
  | .reserve => reserveEntry
  | .lock => lockEntry
  | .release => releaseEntry

/-- What an instruction can do to the block: nothing but its outputs, a move of one pipeline, a write of one lock entry, a
change of one cluster's orientation, or the reset. -/
inductive Effect (s : State) : Instr → State → Prop where
  | quiet {i : Instr} (out : Outputs) : Effect s i { s with out := out }
  | pipe {i : Instr} {c : PipeId} {q : Pipe} (out : Outputs) (hc : s.hasPipe c = true)
      (hq : PipeMove s.cfg c (s.pipe c.toNat) i q) : Effect s i { s.setPipe c.toNat q with out := out }
  | lock {op : LockOp} {item : BitVec 16} {o : ObjectId} {new : LockEntry} (out : Outputs)
      (hitem : s.hasItem item = true) (ho : o.illFormed = false) (hnew : lockRule op o (s.lock item.toNat) = some new) :
      Effect s (lockInstr op item o) { s.setLock item.toNat new with out := out }
  | orient {k : BitVec 16} {o : Bool} {loco : ObjectId} (out : Outputs) (hk : s.clusterRequestOk k loco = true) :
      Effect s (.setOrient k o loco) { s.orientChanged k.toNat o with out := out }
  | reset : Effect s .reset s.begin.resetBlock

/-! ## Every instruction makes a move -/

theorem cdsStep_streamMove {cfg : Config} {c : PipeId} {f : Frame} {p : Pipe} {e : PipeEffect}
    (h : cdsStep cfg c f p = .ok e) : StreamMove cfg c p e := by
  rcases cdsStep_ok h with ⟨-, rfl⟩ | ⟨-, rfl⟩ | ⟨-, -, rfl⟩ | ⟨-, -, hd⟩ | ⟨-, rfl⟩
  · exact .announce ..
  · exact .announce ..
  · exact .trigger _
  · exact .data hd
  · exact .ignore _

/-- R111: behind the enable condition a unit that is not carried out changes the outputs only. -/
theorem rxGate_effect {i : Instr} {c : PipeId} {s t : State} {k : State → Outcome State Fault Refusal}
    (h : rxGate c s k = .next t) (hk : s.hasPipe c = true → k s.begin = .next t → Effect s i t) : Effect s i t := by
  rcases rxGate_cases c s k with ⟨hc, -, he⟩ | ⟨-, -, he⟩ | ⟨-, he⟩ <;> rw [he] at h
  · exact hk hc h
  · cases h
    exact .quiet _
  · cases h
    exact .quiet _

theorem routeOnly_effect {i : Instr} {c : PipeId} {n : BitVec 5} {f : Frame} {s t : State}
    (h : routeOnly c n f s = .next t) : Effect s i t :=
  rxGate_effect h fun _ hk => by cases hk; exact .quiet _

theorem finishPipe_effect {i : Instr} {c : PipeId} {n : BitVec 5} {f : Frame} {s t : State} {r : Except Fault PipeEffect}
    (hc : s.hasPipe c = true) (hi : i.rxPipe = some c)
    (hr : ∀ e, r = .ok e → StreamMove s.cfg c (s.pipe c.toNat) e)
    (h : (s.begin.routed c n f).finishPipe c r = .next t) : Effect s i t := by
  obtain ⟨e, he, rfl⟩ := State.finishPipe_next h
  exact .pipe _ hc (.stream hi (hr e he))

theorem streamFrame_effect {i : Instr} {c : PipeId} {f : Frame} {op : Config → Pipe → Except Fault PipeEffect}
    {s t : State} (h : streamFrame c f op s = .next t) (hi : i.rxPipe = some c)
    (hop : ∀ e, op s.cfg (s.pipe c.toNat) = .ok e → StreamMove s.cfg c (s.pipe c.toNat) e) : Effect s i t :=
  rxGate_effect h fun hc hk => finishPipe_effect hc hi hop hk

/-- R115, R130: the 13 bytes of an RX unit are dropped, routed, or a frame of the stream. -/
theorem receiveFrame_effect {i : Instr} {c : PipeId} {w : WireWord} {s t : State} (hc : s.hasPipe c = true)
    (hi : i.rxPipe = some c) (h : receiveFrame c w s.begin = .next t) : Effect s i t := by
  unfold receiveFrame at h
  split at h
  · cases h
    exact .quiet _
  · rename_i f _
    rcases dispatch_cases c f s.begin with ⟨-, hd⟩ | ⟨-, hd⟩ | ⟨-, -, hd⟩ <;> rw [hd] at h
    · cases h
      exact .quiet _
    · exact finishPipe_effect hc hi (fun e he => cdsStep_streamMove he) h
    · cases h
      exact .quiet _

theorem controlPipe_effect {i : Instr} {c : PipeId} {f : Pipe → PipeEffect} {s t : State}
    (h : controlPipe c f s = .next t) (hf : PipeMove s.cfg c (s.pipe c.toNat) i (f (s.pipe c.toNat)).pipe) :
    Effect s i t := by
  rcases controlPipe_cases c f s with ⟨hc, he⟩ | ⟨-, he⟩ <;> rw [he] at h <;> cases h
  · exact .pipe _ hc hf
  · exact .quiet _

theorem execInflDone_effect {c : PipeId} {ok : Bool} {outLen : BitVec 32} {s t : State}
    (h : execInflDone c ok outLen s = .next t) : Effect s (.inflDone c ok outLen) t := by
  unfold execInflDone at h
  split at h <;> cases h
  · rename_i hok
    simp only [Bool.and_eq_true, beq_iff_eq] at hok
    exact .pipe _ hok.1 (.answer ok outLen hok.2)
  · exact .quiet _

/-- R237, R238: a lock operation that changes its entry writes what its rule answers. -/
theorem lockOperation_effect (op : LockOp) (item : BitVec 16) (o : ObjectId) (s : State) :
    Effect s (lockInstr op item o) (lockOperation op (lockRule op) item o s) := by
  rcases lockOperation_cases op (lockRule op) item o s with
    ⟨-, he⟩ | ⟨hitem, ho, ⟨-, he⟩ | ⟨-, he⟩ | ⟨new, hnew, -, he⟩⟩ <;> rw [he]
  · exact .quiet _
  · exact .quiet _
  · exact .quiet _
  · exact .lock _ hitem ho hnew

theorem execIsinuse_effect {i : Instr} {item : BitVec 16} {s t : State} (h : execIsinuse item s = .next t) :
    Effect s i t := by
  unfold execIsinuse at h
  split at h <;> cases h <;> exact .quiet _

theorem execCanSetOrient_effect {i : Instr} {k : BitVec 16} {o : Bool} {loco : ObjectId} {s t : State}
    (h : execCanSetOrient k o loco s = .next t) : Effect s i t := by
  unfold execCanSetOrient at h
  split at h <;> cases h <;> exact .quiet _

/-- R254: only a request that is taken, asks for a change and is not blocked writes orientation bits. -/
theorem execSetOrient_effect {k : BitVec 16} {o : Bool} {loco : ObjectId} {s t : State}
    (h : execSetOrient k o loco s = .next t) : Effect s (.setOrient k o loco) t := by
  unfold execSetOrient at h
  split at h
  · rename_i hk
    split at h
    · cases h
      exact .quiet _
    · split at h <;> cases h
      · exact .orient _ hk
      · exact .quiet _
  · cases h
    exact .quiet _

theorem execEncode_effect {i : Instr} {c : PipeId} {id : BitVec 29} {len : BitVec 4} {payload : BitVec 64} {s t : State}
    (h : execEncode c id len payload s = .next t) : Effect s i t := by
  unfold execEncode at h
  split_ifs at h <;> cases h <;> exact .quiet _

/-- Every instruction that answers makes one of the moves. -/
theorem exec_effect {i : Instr} {s t : State} (h : exec i s = .next t) : Effect s i t := by
  unfold exec at h
  cases i with
  | system | discovery | bind | verify | speed | direction | function | readConfig | writeConfig | accSwitch | s88A
  | s88B | ping | bootloader | cfgStatus | vendor1E | vendor1F | vendor20 | vendor22 => exact routeOnly_effect h
  | cdsAnn6 | cdsAnn7 => exact streamFrame_effect h rfl fun e he => by cases he; exact .announce ..
  | cdsTrig => exact streamFrame_effect h rfl fun e he => by cases he; exact .trigger _
  | cdsShort => exact streamFrame_effect h rfl fun e he => by cases he; exact .ignore _
  | cdsData => exact streamFrame_effect h rfl fun e he => .data he
  | rxFrame => exact rxGate_effect h fun hc hk => receiveFrame_effect hc rfl hk
  | illen | unknown | rxBadsize | rxTimeout => exact rxGate_effect h fun _ hk => by cases hk; exact .quiet _
  | rxClosed => exact rxGate_effect h fun hc hk => by cases hk; exact .pipe _ hc .closed
  | rxError => exact rxGate_effect h fun hc hk => by cases hk; exact .pipe _ hc .error
  | isinuse => exact execIsinuse_effect h
  | reserve item o => cases h; exact lockOperation_effect .reserve item o s
  | lock item o => cases h; exact lockOperation_effect .lock item o s
  | release item o => cases h; exact lockOperation_effect .release item o s
  | canSetOrient => exact execCanSetOrient_effect h
  | setOrient => exact execSetOrient_effect h
  | reset => cases h; exact .reset
  | pipeStart => exact controlPipe_effect h .start
  | pipeStop => exact controlPipe_effect h .stop
  | cdsAck => exact controlPipe_effect h .ack
  | inflDone => exact execInflDone_effect h
  | encode => exact execEncode_effect h

end Sys2Proof.Machine
end

section
/-! SUPPORT. 10_state.md: who writes `run`, `alive`, the lock table and the orientation bits (R37 to R46), read off the
moves. -/

namespace Sys2Proof.Machine

/-- Settles O23: the moves that write the lock table or the orientation bits carry their instruction and its operand. -/
theorem lockAndOrientWriters : Obligations.LockAndOrientWriters := by
  intro i s t k h hr
  cases exec_effect h with
  | quiet | pipe => exact ⟨absurd rfl, absurd rfl, absurd rfl⟩
  | @lock op item o new =>
    refine ⟨fun hne => ⟨op, item, o, rfl, ?_⟩, absurd rfl, absurd rfl⟩
    by_contra hk
    exact hne ((State.setLock_lock s item.toNat k new).trans (if_neg (Ne.symm hk)))
  | @orient j o loco =>
    refine ⟨absurd rfl, fun hne => ⟨j, o, loco, rfl, ?_⟩, fun hne => ⟨j, o, loco, rfl, ?_⟩⟩
    · by_contra hk
      exact hne ((State.orientChanged_orientOf s j.toNat o k).trans (if_neg hk))
    · by_contra hk
      exact hne ((State.orientChanged_clOrientOf s j.toNat k o).trans (if_neg (Ne.symm hk)))
  | reset => exact absurd rfl hr

/-- R185: no frame of the stream touches `run` or `alive`. -/
theorem StreamMove.run_alive {cfg : Config} {c : PipeId} {p : Pipe} {e : PipeEffect} (h : StreamMove cfg c p e) :
    e.pipe.run = p.run ∧ e.pipe.alive = p.alive := by
  cases h with
  | announce => exact ⟨announce_run .., announce_alive ..⟩
  | trigger | ignore => exact ⟨rfl, rfl⟩
  | data h => exact dataFrame_run_alive h

theorem ackPipe_run_alive (c : PipeId) (p : Pipe) :
    (ackPipe c p).pipe.run = p.run ∧ (ackPipe c p).pipe.alive = p.alive := by
  rcases ackPipe_cases c p with ⟨-, -, h⟩ | ⟨-, h⟩ <;> rw [h] <;> exact ⟨rfl, rfl⟩

theorem inflateAnswer_run_alive (c : PipeId) (ok : Bool) (outLen : BitVec 32) (p : Pipe) :
    (inflateAnswer c ok outLen p).pipe.run = p.run ∧ (inflateAnswer c ok outLen p).pipe.alive = p.alive := by
  rcases inflateAnswer_cases c ok outLen p with ⟨-, -, h⟩ | ⟨-, h⟩ <;> rw [h] <;> exact ⟨rfl, rfl⟩

/-- R37, R38: `run` and `alive` of a pipeline change only by the instructions that start, stop or end its connection. -/
theorem PipeMove.writers {cfg : Config} {c : PipeId} {p q : Pipe} {i : Instr} (h : PipeMove cfg c p i q) :
    (q.run ≠ p.run → i = .pipeStart c ∨ i = .pipeStop c) ∧
    (q.alive ≠ p.alive → i = .pipeStart c ∨ i = .rxClosed c ∨ i = .rxError c) := by
  cases h with
  | stream _ h => exact ⟨absurd h.run_alive.1, absurd h.run_alive.2⟩
  | closed => exact ⟨absurd rfl, fun _ => .inr (.inl rfl)⟩
  | error => exact ⟨absurd rfl, fun _ => .inr (.inr rfl)⟩
  | start => exact ⟨fun _ => .inl rfl, fun _ => .inl rfl⟩
  | stop => exact ⟨fun _ => .inr rfl, absurd rfl⟩
  | ack => exact ⟨absurd (ackPipe_run_alive c p).1, absurd (ackPipe_run_alive c p).2⟩
  | answer ok n _ => exact ⟨absurd (inflateAnswer_run_alive c ok n p).1, absurd (inflateAnswer_run_alive c ok n p).2⟩

/-- Settles O24: a pipeline differs after an instruction only if the instruction moved it. -/
theorem runAliveWriters : Obligations.RunAliveWriters := by
  intro i s t c h hr
  cases exec_effect h with
  | quiet | lock | orient => exact ⟨absurd rfl, absurd rfl⟩
  | reset => exact absurd rfl hr
  | @pipe _ c' q out _ hq =>
    show (((s.setPipe c'.toNat q).pipe c).run ≠ _ → _) ∧ (((s.setPipe c'.toNat q).pipe c).alive ≠ _ → _)
    rw [State.setPipe_pipe]
    split
    · subst_vars
      exact ⟨fun hne => ⟨c', rfl, hq.writers.1 hne⟩, fun hne => ⟨c', rfl, hq.writers.2 hne⟩⟩
    · exact ⟨absurd rfl, absurd rfl⟩

end Sys2Proof.Machine
end

section
/-! SUPPORT. R27 to R36, R61, R223: every move of a pipeline keeps its invariants. `Receiving` is what holds in the middle
of an accepted data frame, after its eight bytes are stored and before the completion test. -/

namespace Sys2Proof.Machine

/-! ## The buffer -/

/-- A write at the first address without a value appends it. -/
theorem putCell_end {α : Type} {m : List (Nat × α)} {n : Nat} (v : α) (h : ∀ k ∈ m.map Prod.fst, k < n) :
    putCell m n v = m ++ [(n, v)] := by
  induction m with
  | nil => rfl
  | cons e m ih =>
    obtain ⟨he, hm⟩ := List.forall_mem_cons.1 h
    rw [putCell, if_neg (Nat.not_lt_of_lt he), if_neg (Nat.ne_of_gt he), ih hm, List.cons_append]

/-- R62: bytes written behind the bytes that hold a value leave no gap. -/
theorem Memory.keys_writeBytes {m : List Host.Cell} {n : Nat} (bs : List Byte) (h : m.map Prod.fst = List.range n) :
    (Memory.writeBytes m n bs).map Prod.fst = List.range (n + bs.length) := by
  induction bs generalizing m n with
  | nil => exact h
  | cons b bs ih =>
    have hend : (Memory.write m n b).map Prod.fst = List.range (n + 1) := by
      rw [Memory.write, putCell_end b fun k hk => List.mem_range.1 (h ▸ hk), List.map_append, h, List.range_succ]
      rfl
    rw [Memory.writeBytes, ih hend, List.length_cons, Nat.add_assoc, Nat.add_comm 1]

/-- R61, R63: what a read answers is what the buffer shows byte by byte. -/
theorem byteAt_of_memRead {p : Pipe} {a n i : Nat} {d : List Byte} (h : memRead p a n = some d) (hi : i < n) :
    p.byteAt (a + i) = d[i]? := by
  obtain ⟨hle, -, hd⟩ := memRead_eq_some.1 h
  rw [Pipe.byteAt, if_pos (by omega), hd i hi]

/-- R217: an expected length whose first byte is 0 is below `2 ^ 24`. -/
theorem be32_zero_lt (b1 b2 b3 : Byte) : (be32 0#8 b1 b2 b3).toNat < 2 ^ 24 := by
  have h1 := b1.isLt
  have h2 := b2.isLt
  have h3 := b3.isLt
  simp only [be32, toNat_append_mul, BitVec.toNat_ofNat]
  omega

/-! ## Moves that open, name or close a session -/

/-- No invariant speaks of `run` or `alive`. -/
theorem PipeInv.with_run_alive {cfg : Config} {p : Pipe} (h : PipeInv cfg p) (r a : Bool) :
    PipeInv cfg { p with run := r, alive := a } := { h with }

/-- R185: a cleared session meets the invariants, whatever it was. -/
theorem pipeInv_clearSession (cfg : Config) (p : Pipe) : PipeInv cfg p.clearSession := by
  constructor <;> simp [Pipe.clearSession, Pipe.reset]

/-- R172, R173: an announce opens an empty session or clears the old one. -/
theorem PipeInv.announce {cfg : Config} {p : Pipe} (h : PipeInv cfg p) (c : PipeId) (hash : BitVec 16)
    (total : BitVec 32) (crc : BitVec 16) (flag : Option Byte) :
    PipeInv cfg (Machine.announce cfg c hash total crc flag p).pipe := by
  rcases announce_cases cfg c hash total crc flag p with ⟨-, he⟩ | ⟨hle, he⟩ <;> rw [he]
  · exact pipeInv_clearSession cfg p
  · have hflag : flag.isSome = false → flag.getD 0 = 0 := by cases flag <;> simp
    exact ⟨rfl, rfl, hle, nofun, fun _ => ⟨rfl, rfl⟩, nofun, nofun, nofun, absurd rfl, nofun, nofun, fun _ => rfl, hflag,
      h.nameClear⟩

/-- R177: a trigger sets the name together with its valid bit. -/
theorem PipeInv.trigger {cfg : Config} {p : Pipe} (h : PipeInv cfg p) (c : PipeId) (name : BitVec 64) :
    PipeInv cfg (Machine.trigger c name p).pipe := { h with nameClear := nofun }

theorem PipeInv.ack {cfg : Config} {p : Pipe} (h : PipeInv cfg p) (c : PipeId) : PipeInv cfg (ackPipe c p).pipe := by
  rcases ackPipe_cases c p with ⟨-, -, he⟩ | ⟨-, he⟩ <;> rw [he]
  · exact pipeInv_clearSession cfg p
  · exact h

/-- R36: whatever ends a pending inflation, the stream it belongs to stays. -/
theorem PipeInv.with_inflState {cfg : Config} {p : Pipe} (h : PipeInv cfg p) (hp : p.inflState = .inflPending)
    {r : InflState} (hr : r ≠ .inflNone) : PipeInv cfg { p with inflState := r } := by
  have hstream : p.cdsState = .complete ∧ p.compressed = true := h.inflating (by simp [hp])
  obtain ⟨hstate, hsize, hbyte, -⟩ := h.compressed hstream.2
  exact
    { h with
      inflating := fun _ => hstream
      sizePrefix := fun _ => h.sizePrefix (.inl hp)
      compressed := fun _ => ⟨hstate, hsize, hbyte, hr⟩ }

/-- R219: the inflater's answer succeeds or fails. -/
theorem PipeInv.answer {cfg : Config} {p : Pipe} (h : PipeInv cfg p) (hp : p.inflState = .inflPending) (c : PipeId)
    (ok : Bool) (outLen : BitVec 32) : PipeInv cfg (inflateAnswer c ok outLen p).pipe := by
  rcases inflateAnswer_cases c ok outLen p with ⟨-, -, he⟩ | ⟨-, he⟩ <;> rw [he] <;> exact h.with_inflState hp nofun

/-! ## Completion -/

/-- R216 to R218: the look at the first bytes of a complete stream starts an inflation only with four bytes to read. -/
theorem PipeInv.detectCompressed {cfg : Config} {p : Pipe} {c : PipeId} {e : PipeEffect} (h : PipeInv cfg p)
    (hstate : p.cdsState = .complete) (he : detectCompressed c p = .ok e) : PipeInv cfg e.pipe := by
  rcases detectCompressed_ok he with ⟨rfl, -⟩ | ⟨hpos, -, hzero, rfl⟩ | ⟨hfour, hzero, b0, b1, b2, b3, hread, rfl⟩
  · exact { h with inflating := absurd rfl, sizePrefix := nofun, compressed := nofun, stored := fun _ => rfl }
  · have hbyte : p.byteAt 0 = some 0#8 := byteAt_of_memRead hzero (i := 0) Nat.one_pos
    exact
      { h with
        inflating := fun _ => ⟨hstate, rfl⟩
        sizePrefix := nofun
        compressed := fun _ => ⟨hstate, hpos, hbyte, nofun⟩
        stored := nofun }
  · have hbyte : p.byteAt 0 = some 0#8 := byteAt_of_memRead hzero (i := 0) Nat.one_pos
    have hfirst : p.byteAt 0 = some b0 := byteAt_of_memRead hread (i := 0) (by omega)
    obtain rfl : 0#8 = b0 := Option.some.inj (hbyte.symm.trans hfirst)
    exact
      { h with
        inflating := fun _ => ⟨hstate, rfl⟩
        sizePrefix := fun _ => ⟨hfour, be32_zero_lt b1 b2 b3, 0#8, b1, b2, b3, hread, rfl⟩
        compressed := fun _ => ⟨hstate, by simp only; omega, hbyte, nofun⟩
        stored := nofun }

/-- What holds of a pipeline whose open session has just stored a data frame (R178). -/
structure Receiving (cfg : Config) (p : Pipe) : Prop where
  bufKeys : p.buf.map Prod.fst = List.range p.rxCount.toNat
  countMul : p.rxCount.toNat % 8 = 0
  countPos : 8 ≤ p.rxCount.toNat
  /-- R31: the frame was taken while bytes were missing, or was the first. -/
  countBound : p.rxCount.toNat = 8 ∨ p.rxCount.toNat < p.totalSize.toNat + 8
  sizeBound : p.totalSize.toNat ≤ cfg.maxTotal
  crcCalc : p.crcCalc = 0
  inflState : p.inflState = .inflNone
  compressed : p.compressed = false
  inflSize : p.inflSize = 0
  flagClear : p.flagValid = false → p.flag = 0
  nameClear : p.nameValid = false → p.name = 0

/-- R178: storing a data frame in an open session. -/
theorem PipeInv.receiving {cfg : Config} {p : Pipe} (h : PipeInv cfg p) (ho : p.sessionOpen = true) (data : BitVec 64) :
    Receiving cfg { p with
      buf := Memory.writeBytes p.buf p.rxCount.toNat (payloadBytes data)
      rxCount := p.rxCount + 8
      cdsState := .accumulating } := by
  have hcount : (p.rxCount + 8).toNat = p.rxCount.toNat + 8 := rxCount_add_eight (h.rxCount_le ho)
  have hopen : p.cdsState = .announced ∨ p.cdsState = .accumulating := by simpa [Pipe.sessionOpen] using ho
  have hbefore : (p.rxCount.toNat = 0 ∨ p.rxCount.toNat < p.totalSize.toNat) ∧ p.crcCalc = 0 := by
    rcases hopen with hs | hs
    · exact ⟨.inl (by simp [(h.announced hs).1]), (h.announced hs).2⟩
    · obtain ⟨-, hlt, hcrc⟩ := h.accumulating hs
      exact ⟨.inr hlt, hcrc⟩
  have hnot : p.cdsState ≠ .complete := by rcases hopen with hs | hs <;> simp [hs]
  have hcomp : p.compressed = false := by
    by_contra hc
    exact hnot (h.compressed (by simpa using hc)).1
  constructor
  case bufKeys => rw [hcount]; exact Memory.keys_writeBytes (payloadBytes data) h.bufKeys
  case countMul => rw [hcount, Nat.add_mod_right]; exact h.countMul
  case countPos => simp only [hcount]; omega
  case countBound => simp only [hcount]; omega
  case sizeBound => exact h.sizeBound
  case crcCalc => exact hbefore.2
  case inflState =>
    by_contra hi
    exact hnot (h.inflating hi).1
  case compressed => exact hcomp
  case inflSize => exact h.stored hcomp
  case flagClear => exact h.flagClear
  case nameClear => exact h.nameClear

/-- R178: a stream whose bytes are not all there goes on. -/
theorem Receiving.pipeInv_accumulating {cfg : Config} {p : Pipe} (h : Receiving cfg p) (hs : p.cdsState = .accumulating)
    (hlt : p.rxCount.toNat < p.totalSize.toNat) : PipeInv cfg p :=
  ⟨h.bufKeys, h.countMul, h.sizeBound, by simp [hs], by simp [hs], fun _ => ⟨h.countPos, hlt, h.crcCalc⟩, by simp [hs],
    by simp [hs], absurd h.inflState, by simp [h.inflState], by simp [h.compressed], fun _ => h.inflSize, h.flagClear,
    h.nameClear⟩

/-- R31, R206: a stream whose bytes are all there and whose CRC is the announced one is complete. -/
theorem Receiving.pipeInv_complete {cfg : Config} {p : Pipe} {d : List Byte} (h : Receiving cfg p)
    (hle : p.totalSize.toNat ≤ p.rxCount.toNat) (hd : memRead p 0 p.totalSize.toNat = some d)
    (hcrc : crc16 d = p.crcAnn) : PipeInv cfg { p with crcCalc := crc16 d, cdsState := .complete } := by
  have hcount : p.rxCount.toNat = 8 * max 1 ((p.totalSize.toNat + 7) / 8) := by
    have hmul := h.countMul
    have hpos := h.countPos
    have hbound := h.countBound
    omega
  exact ⟨h.bufKeys, h.countMul, h.sizeBound, nofun, nofun, nofun, fun _ => ⟨hcount, hcrc, d, hd, hcrc⟩, nofun,
    absurd h.inflState, by simp [h.inflState], by simp [h.compressed], fun _ => h.inflSize, h.flagClear, h.nameClear⟩

/-- R182: a CRC mismatch discards the buffer and the name. -/
theorem Receiving.pipeInv_crcMismatch {cfg : Config} {p : Pipe} (h : Receiving cfg p) {r : BitVec 16}
    (hcrc : r ≠ p.crcAnn) (c : PipeId) : PipeInv cfg (crcMismatch c { p with crcCalc := r }).pipe :=
  ⟨rfl, rfl, h.sizeBound, nofun, nofun, nofun, nofun, fun _ => ⟨rfl, hcrc⟩, absurd rfl, nofun, nofun, fun _ => rfl,
    h.flagClear, fun _ => rfl⟩

/-- R178, R183: what follows a stored data frame. -/
theorem Receiving.appendData {cfg : Config} {p : Pipe} {c : PipeId} {e : PipeEffect} (h : Receiving cfg p)
    (hs : p.cdsState = .accumulating) (he : appendData c p = .ok e) : PipeInv cfg e.pipe := by
  rcases appendData_ok he with ⟨hlt, rfl⟩ | ⟨hle, r, hr, rfl⟩
  · exact h.pipeInv_accumulating hs hlt
  · obtain ⟨d, hd, ⟨hcrc, hdet⟩ | ⟨hcrc, rfl⟩⟩ := complete_ok hr
    · show PipeInv cfg r.pipe
      exact (h.pipeInv_complete hle hd hcrc).detectCompressed rfl hdet
    · exact h.pipeInv_crcMismatch hcrc c

/-- R178 to R180: a data frame is ignored or stored. -/
theorem PipeInv.dataFrame {cfg : Config} {p : Pipe} {c : PipeId} {hash : BitVec 16} {data : BitVec 64} {e : PipeEffect}
    (h : PipeInv cfg p) (he : dataFrame c hash data p = .ok e) : PipeInv cfg e.pipe := by
  rcases dataFrame_ok he with ⟨-, rfl⟩ | ⟨-, -, rfl⟩ | ⟨ho, -, -, happ⟩
  · exact h
  · exact h
  · exact (h.receiving ho data).appendData rfl happ

/-! ## All moves of a pipeline -/

theorem StreamMove.pipeInv {cfg : Config} {c : PipeId} {p : Pipe} {e : PipeEffect} (hm : StreamMove cfg c p e)
    (h : PipeInv cfg p) : PipeInv cfg e.pipe := by
  cases hm with
  | announce hash total crc flag => exact h.announce c hash total crc flag
  | trigger name => exact h.trigger c name
  | data he => exact h.dataFrame he
  | ignore => exact h

theorem PipeMove.pipeInv {cfg : Config} {c : PipeId} {p q : Pipe} {i : Instr} (hm : PipeMove cfg c p i q)
    (h : PipeInv cfg p) : PipeInv cfg q := by
  cases hm with
  | stream _ hs => exact hs.pipeInv h
  | closed | error => exact h.with_run_alive p.run false
  | start => exact (pipeInv_clearSession cfg p).with_run_alive true true
  | stop => exact h.with_run_alive false p.alive
  | ack => exact h.ack c
  | answer ok outLen hp => exact h.answer hp c ok outLen

end Sys2Proof.Machine
end

section
/-! SUPPORT. 10_state.md: the invariants of the block hold after reset (R49) and are kept by every step. Each move keeps
the part of `Inv` it writes; the rest of `Inv` does not see it. -/

namespace Sys2Proof.Machine

/-! ## What R8 and R250 give -/

/-- A table reads as its default or as an entry it lists. -/
theorem Table.get_eq_or_mem {α : Type} (d : α) (m : List (Nat × α)) (k : Nat) :
    Table.get d m k = d ∨ (k, Table.get d m k) ∈ m := by
  induction m with
  | nil => exact .inl rfl
  | cons e m ih =>
    rw [Table.get_cons]
    split
    · subst_vars
      exact .inr List.mem_cons_self
    · exact ih.imp_right (List.mem_cons_of_mem e)

/-- R8, R250: the constraints on the configuration that the invariants rest on. -/
structure SoundConfig (cfg : Config) : Prop where
  clusterCount : cfg.clusterMembers.length = cfg.nClusters
  memberItems : ∀ m ∈ cfg.clusterMembers.flatten, m.1 < cfg.nItems
  membersOnce : (cfg.clusterMembers.flatten.map Prod.fst).Nodup
  lockInitKeys : keysRise cfg.lockInit = true
  lockInitEntries : ∀ e ∈ cfg.lockInit, e.1 < cfg.nItems ∧ e.2 ≠ .freeUnset ∧ e.2.owner.illFormed = false

theorem soundConfig_of_wf {cfg : Config} (h : cfg.wf = true) : SoundConfig cfg := by
  simp only [Config.wf, Bool.and_eq_true, decide_eq_true_eq, List.all_eq_true, bne_iff_ne, Bool.not_eq_true'] at h
  obtain ⟨⟨⟨⟨⟨-, hlen⟩, hitems⟩, honce⟩, hkeys⟩, hinit⟩ := h
  refine ⟨hlen, hitems, honce, hkeys, fun e he => ?_⟩
  obtain ⟨⟨⟨hlt, hne⟩, hown⟩, -⟩ := hinit e he
  exact ⟨hlt, hne, hown⟩

theorem clusterMembersOf_eq {cfg : Config} {k : Nat} (hk : k < cfg.clusterMembers.length) :
    clusterMembersOf cfg k = cfg.clusterMembers[k] := by
  simp [clusterMembersOf, List.getElem?_eq_getElem hk]

theorem clusterMembersOf_index {cfg : Config} {k i : Nat} (h : i ∈ (clusterMembersOf cfg k).map Prod.fst) :
    k < cfg.clusterMembers.length := by
  by_contra hk
  simp [clusterMembersOf, hk] at h

/-- R250: every member is an item of the block. -/
theorem SoundConfig.member_lt {cfg : Config} (h : SoundConfig cfg) {k i : Nat}
    (hi : i ∈ (clusterMembersOf cfg k).map Prod.fst) : i < cfg.nItems := by
  have hk : k < cfg.clusterMembers.length := clusterMembersOf_index hi
  rw [clusterMembersOf_eq hk] at hi
  obtain ⟨m, hm, rfl⟩ := List.mem_map.1 hi
  exact h.memberItems m (List.mem_flatten.2 ⟨_, List.getElem_mem hk, hm⟩)

/-- R250: an item is a member of at most one cluster. -/
theorem SoundConfig.cluster_unique {cfg : Config} (h : SoundConfig cfg) {j k i : Nat}
    (hj : i ∈ (clusterMembersOf cfg j).map Prod.fst) (hk : i ∈ (clusterMembersOf cfg k).map Prod.fst) : j = k := by
  have honce := h.membersOnce
  rw [List.map_flatten, List.nodup_flatten, List.pairwise_map, List.pairwise_iff_getElem] at honce
  obtain ⟨-, hdisjoint⟩ := honce
  have hjl : j < cfg.clusterMembers.length := clusterMembersOf_index hj
  have hkl : k < cfg.clusterMembers.length := clusterMembersOf_index hk
  rw [clusterMembersOf_eq hjl] at hj
  rw [clusterMembersOf_eq hkl] at hk
  rcases Nat.lt_trichotomy j k with hlt | heq | hgt
  · exact (hdisjoint j k hjl hkl hlt hj hk).elim
  · exact heq
  · exact (hdisjoint k j hkl hjl hgt hk hj).elim

/-- R302: `LOCK_INIT` is a table in canonical form. -/
theorem SoundConfig.lockInit_wf {cfg : Config} (h : SoundConfig cfg) : Table.wf .freeUnset cfg.lockInit = true := by
  simp only [Table.wf, Bool.and_eq_true, List.all_eq_true, decide_eq_true_eq]
  exact ⟨h.lockInitKeys, fun e he => (h.lockInitEntries e he).2.1⟩

theorem SoundConfig.lockInit_noItem {cfg : Config} (h : SoundConfig cfg) {i : Nat} (hi : cfg.nItems ≤ i) :
    Table.get .freeUnset cfg.lockInit i = .freeUnset :=
  (Table.get_eq_or_mem _ _ i).resolve_right fun hm => Nat.not_lt_of_le hi (h.lockInitEntries _ hm).1

theorem SoundConfig.lockInit_owner {cfg : Config} (h : SoundConfig cfg) (i : Nat) :
    (Table.get .freeUnset cfg.lockInit i).owner.illFormed = false := by
  rcases Table.get_eq_or_mem .freeUnset cfg.lockInit i with hd | hm
  · rw [hd]
    rfl
  · exact (h.lockInitEntries _ hm).2.2

/-! ## Each move keeps the invariants of the block -/

theorem Inv.sound {s : State} (h : Inv s) : SoundConfig s.cfg := soundConfig_of_wf h.cfgWf

/-- The invariants speak neither of the waiting words nor of the outputs. -/
theorem Inv.with_pending_out {s : State} (h : Inv s) (ws : List PortWord) (out : Outputs) :
    Inv { s with pending := ws, out := out } := { h with }

theorem Inv.with_out {s : State} (h : Inv s) (out : Outputs) : Inv { s with out := out } :=
  h.with_pending_out s.pending out

theorem Inv.setPipe {s : State} (h : Inv s) {c : Nat} {q : Pipe} (hc : c < s.cfg.nConn) (hq : PipeInv s.cfg q) :
    Inv (s.setPipe c q) where
  __ := h
  pipesWf := Table.wf_set c q h.pipesWf
  pipes c' := by
    rw [State.setPipe_pipe]
    split
    · exact hq
    · exact h.pipes c'
  onlyPipes c' hc' := by
    rw [State.setPipe_pipe, if_neg (Nat.ne_of_gt (Nat.lt_of_lt_of_le hc hc'))]
    exact h.onlyPipes c' hc'

theorem Inv.setLock {s : State} (h : Inv s) {item : BitVec 16} {e : LockEntry} (hitem : s.hasItem item = true)
    (ho : e.owner.illFormed = false) : Inv (s.setLock item.toNat e) where
  __ := h
  locksWf := Table.wf_set item.toNat e h.locksWf
  onlyItems i hi := by
    obtain ⟨hlock, hlt⟩ := (s.hasItem_iff item).1 hitem
    have hne : i ≠ item.toNat := by
      rintro rfl
      rcases hi with hi | hi
      · exact Nat.not_lt_of_le hi hlt
      · exact Bool.false_ne_true (hi.symm.trans hlock)
    rw [State.setLock_lock, if_neg hne]
    exact h.onlyItems i hi
  owners i := by
    rw [State.setLock_lock]
    split
    · exact ho
    · exact h.owners i

/-- R254, R256: a change of cluster `k` reaches the members of `k` and no member of another cluster. -/
theorem Inv.orientChanged {s : State} (h : Inv s) {k : BitVec 16} {loco : ObjectId}
    (hk : s.clusterRequestOk k loco = true) (o : Bool) : Inv (s.orientChanged k.toNat o) := by
  obtain ⟨⟨hcluster, hlt⟩, -⟩ : (s.cfg.hasCluster = true ∧ k.toNat < s.cfg.nClusters) ∧ loco.illFormed = false := by
    simpa [State.clusterRequestOk] using hk
  exact
    { h with
      orientWf := wf_forceOrient o _ h.orientWf
      clOrientWf := Table.wf_set k.toNat o h.clOrientWf
      onlyOrient := fun i hi => by
        have hne : i ∉ (clusterMembersOf s.cfg k.toNat).map Prod.fst := fun hm =>
          hi.elim (fun hle => Nat.not_lt_of_le hle (h.sound.member_lt hm)) (by simp [hcluster])
        rw [State.orientChanged_orientOf, if_neg hne]
        exact h.onlyOrient i hi
      onlyClOrient := fun j hj => by
        have hne : j ≠ k.toNat := by
          rintro rfl
          exact hj.elim (fun hle => Nat.not_lt_of_le hle hlt) (by simp [hcluster])
        rw [State.orientChanged_clOrientOf, if_neg hne]
        exact h.onlyClOrient j hj
      clusters := fun j m hm => by
        have hmem : m.1 ∈ (clusterMembersOf s.cfg j).map Prod.fst := List.mem_map_of_mem hm
        rw [State.orientChanged_orientOf, State.orientChanged_clOrientOf]
        by_cases hj : j = k.toNat
        · rw [if_pos hj, if_pos (hj ▸ hmem)]
        · rw [if_neg hj, if_neg fun hk' => hj (h.sound.cluster_unique hmem hk')]
          exact h.clusters j m hm }

theorem State.resetBlock_lock (s : State) (i : Nat) :
    s.resetBlock.lock i = if s.cfg.hasLock then Table.get .freeUnset s.cfg.lockInit i else s.lock i := by
  unfold State.lock State.resetBlock
  cases s.cfg.hasLock <;> rfl

theorem State.resetBlock_orientOf (s : State) (i : Nat) :
    s.resetBlock.orientOf i = if s.cfg.hasCluster then false else s.orientOf i := by
  unfold State.orientOf State.resetBlock
  cases s.cfg.hasCluster <;> rfl

theorem State.resetBlock_clOrientOf (s : State) (k : Nat) :
    s.resetBlock.clOrientOf k = if s.cfg.hasCluster then false else s.clOrientOf k := by
  unfold State.clOrientOf State.resetBlock
  cases s.cfg.hasCluster <;> rfl

/-- R300: `RESET` empties the pipelines and gives the tables of the options that are present their first values. -/
theorem Inv.resetBlock {s : State} (h : Inv s) : Inv s.resetBlock where
  cfgWf := h.cfgWf
  pipesWf := rfl
  pipes _ := pipeInv_clearSession s.cfg .reset
  onlyPipes _ _ := rfl
  locksWf := by
    show Table.wf .freeUnset (if s.cfg.hasLock then s.cfg.lockInit else s.locks) = true
    split
    · exact h.sound.lockInit_wf
    · exact h.locksWf
  onlyItems i hi := by
    rw [State.resetBlock_lock]
    split
    · rename_i hlock
      exact hi.elim h.sound.lockInit_noItem (by simp [hlock])
    · exact h.onlyItems i hi
  owners i := by
    rw [State.resetBlock_lock]
    split
    · exact h.sound.lockInit_owner i
    · exact h.owners i
  orientWf := by
    show Table.wf false (if s.cfg.hasCluster then [] else s.orient) = true
    split
    · rfl
    · exact h.orientWf
  clOrientWf := by
    show Table.wf false (if s.cfg.hasCluster then [] else s.clOrient) = true
    split
    · rfl
    · exact h.clOrientWf
  onlyOrient i hi := by
    rw [State.resetBlock_orientOf]
    split
    · rfl
    · exact h.onlyOrient i hi
  onlyClOrient k hk := by
    rw [State.resetBlock_clOrientOf]
    split
    · rfl
    · exact h.onlyClOrient k hk
  clusters k m hm := by
    rw [State.resetBlock_orientOf, State.resetBlock_clOrientOf]
    split
    · rfl
    · exact h.clusters k m hm

/-- R40: a lock operation leaves the entry's owner, unsets it, or takes the requester's. -/
theorem lockRule_owner {op : LockOp} {o : ObjectId} {e new : LockEntry} (h : lockRule op o e = some new) :
    new.owner = e.owner ∨ new.owner = .unset ∨ new.owner = o := by
  cases op with
  | reserve =>
    simp only [lockRule, reserveEntry] at h
    split_ifs at h <;> cases h <;> simp
  | lock =>
    simp only [lockRule, lockEntry] at h
    split_ifs at h
    cases h
    exact .inl rfl
  | release =>
    simp only [lockRule, releaseEntry] at h
    split_ifs at h
    cases h
    exact .inr (.inl rfl)

theorem lockRule_wellFormed {op : LockOp} {o : ObjectId} {e new : LockEntry} (h : lockRule op o e = some new)
    (he : e.owner.illFormed = false) (ho : o.illFormed = false) : new.owner.illFormed = false := by
  rcases lockRule_owner h with hn | hn | hn <;> rw [hn]
  · exact he
  · rfl
  · exact ho

/-! ## Reset and steps -/

theorem Effect.inv {s t : State} {i : Instr} (he : Effect s i t) (h : Inv s) : Inv t := by
  cases he with
  | quiet out => exact h.with_out out
  | @pipe _ c q out hc hq =>
    exact (h.setPipe ((s.hasPipe_iff c).1 hc) (hq.pipeInv (h.pipes c.toNat))).with_out out
  | @lock op item o new out hitem ho hnew =>
    exact (h.setLock hitem (lockRule_wellFormed hnew (h.owners item.toNat) ho)).with_out out
  | @orient k o loco out hk => exact (h.orientChanged hk o).with_out out
  | reset => exact (h.with_out .empty).resetBlock

/-- Settles O16: a step idles, refuses one word, or runs an instruction, whose move keeps the invariants. -/
theorem invStep : Obligations.InvStep := by
  intro s t hs h
  rcases step_cases s with ⟨-, he⟩ | ⟨before, w, after, -, -, -, ⟨i, -, he⟩ | ⟨r, -, he⟩⟩ <;> rw [he] at h
  · cases h
    exact hs.with_out .empty
  · exact (exec_effect h).inv (hs.with_pending_out (before ++ after) s.out)
  · cases h
    exact hs.with_pending_out (before ++ after) _

/-- A block without a lock entry or an orientation bit meets the invariants. -/
theorem inv_blank {cfg : Config} (h : cfg.wf = true) : Inv { State.powerOn cfg with locks := [] } :=
  ⟨h, rfl, fun _ => pipeInv_clearSession cfg .reset, fun _ _ => rfl, rfl, fun _ _ => rfl, fun _ => rfl, rfl, rfl,
    fun _ _ => rfl, fun _ _ => rfl, fun _ _ _ => rfl⟩

/-- R49, R300: the state after reset is what `RESET` makes of a blank block. -/
theorem powerOn_eq_resetBlock (cfg : Config) :
    State.powerOn cfg = State.resetBlock { State.powerOn cfg with locks := [] } := by
  cases h : cfg.hasCluster <;> simp [State.powerOn, State.resetBlock, h] <;> rfl

theorem inv_powerOn {cfg : Config} (h : cfg.wf = true) : Inv (State.powerOn cfg) :=
  powerOn_eq_resetBlock cfg ▸ (inv_blank h).resetBlock

/-- Settles O15: the default configuration is one of those that meet R8 and R250. -/
theorem invReset : Obligations.InvReset := ⟨inv_powerOn (by decide), fun _ => inv_powerOn⟩

/-- R61: a buffer without a byte shows none. -/
theorem byteAt_of_buf_nil {p : Pipe} (h : p.buf = []) (a : Nat) : p.byteAt a = none := by
  rw [Pipe.byteAt, h]
  exact ite_self none

/-- Settles O18: no pipeline and no orientation bit is listed, and the lock table is `LOCK_INIT`. -/
theorem resetValues : Obligations.ResetValues := by
  refine ⟨fun cfg c a => ?_, fun cfg i hlock => ?_, fun _ _ => ⟨rfl, rfl⟩, fun _ => rfl⟩
  · have hpipe : (State.powerOn cfg).pipe c = .reset := rfl
    rw [hpipe]
    exact ⟨rfl, rfl, rfl, rfl, rfl, rfl, rfl, rfl, rfl, rfl, rfl, rfl, rfl, rfl, rfl, byteAt_of_buf_nil rfl a, rfl⟩
  · show Table.get .freeUnset (if cfg.hasLock then cfg.lockInit else []) i = _
    rw [if_pos hlock]

end Sys2Proof.Machine
end

section
/-! SUPPORT. 20_memory.md: what stands in which pipeline or queue after a step. The receive units are read as one family:
`RxRule` lists what stands behind the enable condition (R111), and who stores a byte (R62) and what a pending inflation
keeps (R78) are read off it; the rest follows from the moves of `Effect`. -/

namespace Sys2Proof.Machine

open Host (Outcome)

/-! ## Order -/

theorem Effect.pending {s t : State} {i : Instr} (h : Effect s i t) : t.pending = s.pending := by
  cases h <;> rfl

/-- R15, R71: a step takes one waiting word and leaves the others in place, or takes none. -/
theorem step_pending {s t : State} (h : step s = .next t) :
    t.pending = s.pending ∨ ∃ before w after, s.pending = before ++ w :: after ∧ t.pending = before ++ after ∧
      (∀ x ∈ before, s.held x = true) ∧ s.held w = false := by
  rcases step_cases s with ⟨-, he⟩ | ⟨before, w, after, hp, hb, hw, hrun⟩
  · rw [he] at h
    cases h
    exact .inl rfl
  · refine .inr ⟨before, w, after, hp, ?_, hb, hw⟩
    rcases hrun with ⟨i, -, he⟩ | ⟨r, -, he⟩ <;> rw [he] at h
    · exact (exec_effect h).pending
    · cases h
      rfl

/-- A queue whose words do not stand before the word taken loses nothing or its head. -/
theorem filter_take {α : Type} (q : α → Bool) {before after : List α} {w : α}
    (h : q w = true → ∀ x ∈ before, q x = false) :
    (before ++ after).filter q = (before ++ w :: after).filter q ∨
      ∃ x, (before ++ w :: after).filter q = x :: (before ++ after).filter q := by
  cases hw : q w with
  | false => exact .inl (by simp [hw])
  | true =>
    have hnone : before.filter q = [] := List.filter_eq_nil_iff.2 fun x hx => by simp [h hw x hx]
    exact .inr ⟨w, by simp [hw, hnone]⟩

/-- R111: whether a receive word is held depends on its pipeline only. -/
theorem held_of_rxPipeOf_eq {s : State} {w x : PortWord} (h : rxPipeOf x = rxPipeOf w) : s.held x = s.held w := by
  simp only [State.held, h]

/-- R111: only words of the receive port are held. -/
theorem port_of_held {s : State} {w : PortWord} (h : s.held w = true) : w.port = .rxu := by
  cases w with
  | rxu | frame => rfl
  | lk | cl | ctl | inf | tx => cases h

/-- Settles O13: no word of its own queue is held before the word taken: one of the same pipeline would be held as well as
that word, and one of another port is never held. -/
theorem portOrder : Obligations.PortOrder := by
  intro s t h
  rcases step_pending h with hp | ⟨before, w, after, hs, ht, hb, hw⟩
  · simp [hp]
  · simp only [hs, ht]
    refine ⟨fun c => filter_take _ fun hc x hx => ?_, fun p hne => filter_take _ fun _ x hx => ?_⟩
    · rw [beq_iff_eq] at hc
      refine beq_eq_false_iff_ne.2 fun hxc => ?_
      rw [← held_of_rxPipeOf_eq (hxc.trans hc.symm), hb x hx] at hw
      cases hw
    · rw [port_of_held (hb x hx)]
      exact beq_eq_false_iff_ne.2 (Ne.symm hne)

/-! ## Other pipelines stay -/

theorem pipeOf_of_rxPipe {i : Instr} {c : PipeId} (h : i.rxPipe = some c) : i.pipeOf = some c := by
  cases i with
  | pipeStart | pipeStop | cdsAck | inflDone => cases h
  | _ => exact h

theorem PipeMove.pipeOf {cfg : Config} {c : PipeId} {p q : Pipe} {i : Instr} (h : PipeMove cfg c p i q) :
    i.pipeOf = some c := by
  cases h with
  | stream hi _ => exact pipeOf_of_rxPipe hi
  | closed | error | start | stop | ack | answer => rfl

/-- Settles O21: a move of a pipeline is one of the pipeline its instruction names. -/
theorem pipelinesPrivate : Obligations.PipelinesPrivate := by
  intro i s t c h hr hc
  cases exec_effect h with
  | quiet | lock | orient => rfl
  | reset => exact absurd rfl hr
  | @pipe _ c' q out _ hq =>
    exact (State.setPipe_pipe s c'.toNat c q).trans (if_neg fun he => hc c' hq.pipeOf he.symm)

/-! ## Receive instructions -/

/-- R178: instruction `i` is a data frame on pipeline `c`, on its own or inside an RX unit. -/
def DataFrameOf (cfg : Config) (c : PipeId) (i : Instr) (h : Header) (data : BitVec 64) : Prop :=
  i = .cdsData c h data ∨ ∃ w, i = .rxFrame c w ∧ decodeWire cfg c w = .cdsData c h data

/-- R61, R62: what instruction `i` can make of the buffer of its pipeline `p`. -/
inductive BufRule (cfg : Config) (c : PipeId) (i : Instr) (p : Pipe) : List Host.Cell → Prop where
  | keep : BufRule cfg c i p p.buf
  | discard : BufRule cfg c i p []
  | store {h : Header} {data : BitVec 64} (hd : DataFrameOf cfg c i h data) :
      BufRule cfg c i p (Memory.writeBytes p.buf p.rxCount.toNat (payloadBytes data))

/-- What stands behind the enable condition in a receive instruction of pipeline `c`: outputs only, the end of the
connection, or a frame of the config-data stream. -/
inductive RxRule (c : PipeId) (i : Instr) : (State → Outcome State Fault Refusal) → Prop where
  | quiet (g : Outputs → Outputs) : RxRule c i fun s => .next { s with out := g s.out }
  | dead (kind : DeadKind) : RxRule c i fun s => .next (connectionDead c kind s)
  | stream (f : Frame) {op : Config → Pipe → Except Fault PipeEffect}
      (hop : ∀ cfg p e, op cfg p = .ok e → BufRule cfg c i p e.pipe.buf) :
      RxRule c i fun s => (s.routed c 19 f).finishPipe c (op s.cfg (s.pipe c.toNat))

theorem announce_bufRule (cfg : Config) (c : PipeId) (i : Instr) (hash : BitVec 16) (total : BitVec 32) (crc : BitVec 16)
    (flag : Option Byte) (p : Pipe) : BufRule cfg c i p (announce cfg c hash total crc flag p).pipe.buf := by
  rcases announce_cases cfg c hash total crc flag p with ⟨-, he⟩ | ⟨-, he⟩ <;> rw [he] <;> exact .discard

theorem detectCompressed_buf {c : PipeId} {p : Pipe} {e : PipeEffect} (h : detectCompressed c p = .ok e) :
    e.pipe.buf = p.buf := by
  rcases detectCompressed_ok h with ⟨rfl, -⟩ | ⟨-, -, -, rfl⟩ | ⟨-, -, _, _, _, _, -, rfl⟩ <;> rfl

/-- R62, R182: a data frame is ignored, stored, or stored and discarded with the whole stream. -/
theorem dataFrame_bufRule {cfg : Config} {c : PipeId} {i : Instr} {h : Header} {data : BitVec 64} {p : Pipe}
    {e : PipeEffect} (hd : DataFrameOf cfg c i h data) (he : dataFrame c h.hash data p = .ok e) :
    BufRule cfg c i p e.pipe.buf := by
  rcases dataFrame_ok he with ⟨-, rfl⟩ | ⟨-, -, rfl⟩ | ⟨-, -, -, ha⟩
  · exact .keep
  · exact .keep
  · rcases appendData_ok ha with ⟨-, rfl⟩ | ⟨-, r, hr, rfl⟩
    · exact .store hd
    · obtain ⟨d, -, ⟨-, hdet⟩ | ⟨-, rfl⟩⟩ := complete_ok hr
      · exact (detectCompressed_buf hdet).symm ▸ .store hd
      · exact .discard

/-- R88, R89: 13 bytes that `cds_step` takes as a data frame decode to `CDS.DATA`. -/
theorem decodeWire_cdsData {cfg : Config} {c : PipeId} {w : WireWord} {f : Frame} (hw : decodeFrame w = .ok f)
    (h19 : handlerOf f.cmd = 19) (h8 : f.len.val = 8) (ht : triggerMatch cfg f = false) :
    decodeWire cfg c w = .cdsData c f.header f.payload := by
  simp [decodeWire, hw, instrOfFrame, h19, h8, ht]

theorem cdsStep_bufRule {cfg : Config} {c : PipeId} {w : WireWord} {f : Frame} {p : Pipe} {e : PipeEffect}
    (hw : decodeFrame w = .ok f) (h19 : handlerOf f.cmd = 19) (h : cdsStep cfg c f p = .ok e) :
    BufRule cfg c (.rxFrame c w) p e.pipe.buf := by
  rcases cdsStep_ok h with ⟨-, rfl⟩ | ⟨-, rfl⟩ | ⟨-, -, rfl⟩ | ⟨h8, ht, hd⟩ | ⟨-, rfl⟩
  · exact announce_bufRule ..
  · exact announce_bufRule ..
  · exact .keep
  · exact dataFrame_bufRule (h := f.header) (.inr ⟨w, rfl, decodeWire_cdsData hw h19 h8 ht⟩) hd
  · exact .keep

theorem emit_rxRule (c : PipeId) (i : Instr) (e : Event) : RxRule c i fun s => .next (s.emit e) :=
  .quiet fun o => { o with events := o.events ++ [e] }

theorem routed_rxRule (c : PipeId) (i : Instr) (n : BitVec 5) (f : Frame) : RxRule c i fun s => .next (s.routed c n f) :=
  .quiet fun o => { o with handler := some (handlerRecord c n f), events := o.events ++ [.dispatch c n f.resp] }

/-- R115, R130: the 13 bytes of an RX unit are dropped, routed, or a frame of the stream. -/
theorem receiveFrame_rxRule (c : PipeId) (w : WireWord) : RxRule c (.rxFrame c w) (receiveFrame c w) := by
  cases hw : decodeFrame w with
  | error lenb =>
    have hk : receiveFrame c w = fun s => .next (s.emit (.invalidLength c lenb)) := by
      funext s; simp [receiveFrame, hw]
    exact hk ▸ emit_rxRule ..
  | ok f =>
    have hk : receiveFrame c w = dispatch c f := by funext s; simp [receiveFrame, hw]
    rw [hk]
    by_cases h0 : handlerOf f.cmd = 0
    · have hd : dispatch c f = fun s => .next (s.emit (.unknownCmd c f.cmd9)) := by funext s; simp [dispatch, h0]
      exact hd ▸ emit_rxRule ..
    · by_cases h19 : handlerOf f.cmd = 19
      · have hd : dispatch c f = fun s => (s.routed c 19 f).finishPipe c (cdsStep s.cfg c f (s.pipe c.toNat)) := by
          funext s; simp [dispatch, h19]
        exact hd ▸ .stream f (op := fun cfg p => cdsStep cfg c f p) fun _ _ _ he => cdsStep_bufRule hw h19 he
      · have hd : dispatch c f = fun s => .next (s.routed c (handlerOf f.cmd) f) :=
          funext fun s => (if_neg h0).trans (if_neg h19)
        exact hd ▸ routed_rxRule ..

theorem streamFrame_rxRule {c : PipeId} {i : Instr} {f : Frame} {op : Config → Pipe → Except Fault PipeEffect}
    (hop : ∀ cfg p e, op cfg p = .ok e → BufRule cfg c i p e.pipe.buf) :
    ∃ k, RxRule c i k ∧ ∀ s, streamFrame c f op s = rxGate c s k := ⟨_, .stream f hop, fun _ => rfl⟩

/-- R111: every receive instruction is one of these rules behind the enable condition. -/
theorem exec_rxRule {i : Instr} {c : PipeId} (h : i.rxPipe = some c) :
    ∃ k, RxRule c i k ∧ ∀ s, exec i s = rxGate c s k := by
  unfold exec
  cases i with
  | system | discovery | bind | verify | speed | direction | function | readConfig | writeConfig | accSwitch | s88A
  | s88B | ping | bootloader | cfgStatus | vendor1E | vendor1F | vendor20 | vendor22 =>
    cases h
    exact ⟨_, routed_rxRule .., fun _ => rfl⟩
  | illen | unknown | rxBadsize =>
    cases h
    exact ⟨_, emit_rxRule .., fun _ => rfl⟩
  | rxTimeout =>
    cases h
    exact ⟨_, .quiet id, fun _ => rfl⟩
  | rxClosed | rxError =>
    cases h
    exact ⟨_, .dead _, fun _ => rfl⟩
  | rxFrame _ w =>
    cases h
    exact ⟨_, receiveFrame_rxRule c w, fun _ => rfl⟩
  | cdsAnn6 | cdsAnn7 =>
    cases h
    refine streamFrame_rxRule fun _ _ _ he => ?_
    cases he
    exact announce_bufRule ..
  | cdsTrig | cdsShort =>
    cases h
    refine streamFrame_rxRule fun _ _ _ he => ?_
    cases he
    exact .keep
  | cdsData _ hd data =>
    cases h
    exact streamFrame_rxRule fun _ _ _ he => dataFrame_bufRule (.inl rfl) he
  | isinuse | reserve | lock | release | canSetOrient | setOrient | reset | pipeStart | pipeStop | cdsAck | inflDone
  | encode => cases h

/-! ## Stored bytes -/

theorem payloadBytes_getElem? (d : BitVec 64) {k : Nat} (h : k < 8) : (payloadBytes d)[k]? = some (payloadByte d k) := by
  interval_cases k <;> rfl

/-- R62: a byte that holds a value after an instruction held it before, or is one of the eight of a data frame. -/
theorem BufRule.read {cfg : Config} {c : PipeId} {i : Instr} {p : Pipe} {m : List Host.Cell} {a : Nat} {b : Byte}
    (h : BufRule cfg c i p m) (hb : Memory.read m a = some b) :
    Memory.read p.buf a = some b ∨ ∃ hd data, DataFrameOf cfg c i hd data ∧ p.rxCount.toNat ≤ a ∧
      a < p.rxCount.toNat + 8 ∧ b = payloadByte data (a - p.rxCount.toNat) := by
  cases h with
  | keep => exact .inl hb
  | discard => cases hb
  | @store hd data hdata =>
    rw [Memory.read_writeBytes, payloadBytes_length] at hb
    split at hb
    · rename_i hin
      rw [payloadBytes_getElem? data (by omega)] at hb
      exact .inr ⟨hd, data, hdata, hin.1, hin.2, (Option.some.inj hb).symm⟩
    · exact .inl hb

theorem RxRule.bufRule {c : PipeId} {i : Instr} {k : State → Outcome State Fault Refusal} (hk : RxRule c i k)
    {s t : State} (h : k s.begin = .next t) : BufRule s.cfg c i (s.pipe c.toNat) (t.pipe c.toNat).buf := by
  cases hk with
  | quiet => cases h; exact .keep
  | dead kind =>
    cases h
    have hp : ((connectionDead c kind s.begin).pipe c.toNat).buf = (s.pipe c.toNat).buf := by
      simp [connectionDead]
    exact hp ▸ .keep
  | stream f hop =>
    obtain ⟨e, he, rfl⟩ := State.finishPipe_next h
    rw [State.applyPipe_pipe_same]
    exact hop _ _ e he

/-- R62: what a receive instruction makes of the buffer of its pipeline. -/
theorem exec_rx_bufRule {i : Instr} {c : PipeId} {s t : State} (hi : i.rxPipe = some c) (h : exec i s = .next t) :
    BufRule s.cfg c i (s.pipe c.toNat) (t.pipe c.toNat).buf := by
  obtain ⟨k, hk, he⟩ := exec_rxRule hi
  rw [he] at h
  rcases rxGate_cases c s k with ⟨-, -, hg⟩ | ⟨-, -, hg⟩ | ⟨-, hg⟩ <;> rw [hg] at h
  · exact hk.bufRule h
  · cases h; exact .keep
  · cases h; exact .keep

/-- R61, R62: a move of a pipeline by an instruction of another port keeps its buffer or discards it. -/
theorem PipeMove.bufRule {cfg : Config} {c : PipeId} {p q : Pipe} {i : Instr} (h : PipeMove cfg c p i q)
    (hi : i.rxPipe = none) : BufRule cfg c i p q.buf := by
  cases h with
  | stream hx => cases hi.symm.trans hx
  | closed | error => cases hi
  | start => exact .discard
  | stop => exact .keep
  | ack =>
    rcases ackPipe_cases c p with ⟨-, -, he⟩ | ⟨-, he⟩ <;> rw [he]
    · exact .discard
    · exact .keep
  | answer ok n =>
    rcases inflateAnswer_cases c ok n p with ⟨-, -, he⟩ | ⟨-, he⟩ <;> rw [he] <;> exact .keep

/-- What an instruction leaves in the pipeline it names. -/
theorem exec_pipeMove {i : Instr} {c : PipeId} {s t : State} (hi : i.pipeOf = some c) (h : exec i s = .next t) :
    t.pipe c.toNat = s.pipe c.toNat ∨ PipeMove s.cfg c (s.pipe c.toNat) i (t.pipe c.toNat) := by
  cases exec_effect h with
  | quiet | lock | orient => exact .inl rfl
  | @pipe _ c' q out _ hq =>
    obtain rfl : c' = c := Option.some.inj (hq.pipeOf.symm.trans hi)
    have ht : ({ s.setPipe c'.toNat q with out := out } : State).pipe c'.toNat = q := s.setPipe_pipe_same c'.toNat q
    exact .inr (ht.symm ▸ hq)
  | reset => cases hi

theorem exec_bufRule {i : Instr} {c : PipeId} {s t : State} (hi : i.pipeOf = some c) (h : exec i s = .next t) :
    BufRule s.cfg c i (s.pipe c.toNat) (t.pipe c.toNat).buf := by
  cases hx : i.rxPipe with
  | some c' =>
    obtain rfl : c' = c := Option.some.inj ((pipeOf_of_rxPipe hx).symm.trans hi)
    exact exec_rx_bufRule hx h
  | none =>
    rcases exec_pipeMove hi h with he | hm
    · exact he ▸ .keep
    · exact hm.bufRule hx

/-- Settles O25: the buffer of the pipeline an instruction names follows `BufRule`, the others are as before. -/
theorem storedBytes : Obligations.StoredBytes := by
  intro i s t c a b h hb
  by_cases hr : i = .reset
  · subst hr
    cases h
    cases hb
  · by_cases hc : ∃ c', i.pipeOf = some c' ∧ c'.toNat = c
    · obtain ⟨c', hi, rfl⟩ := hc
      refine ((exec_bufRule hi h).read hb).imp_right ?_
      rintro ⟨hd, data, hdata, hplace⟩
      exact ⟨c', hd, data, rfl, hdata, hplace⟩
    · have ht : t.pipe c = s.pipe c := pipelinesPrivate i s t c h hr fun c' hi he => hc ⟨c', hi, he⟩
      exact .inl (ht ▸ hb)

/-! ## A pending inflation -/

/-- R111: no receive instruction reaches a pipeline that takes none. -/
theorem exec_rx_disabled {i : Instr} {c : PipeId} {s t : State} (hi : i.rxPipe = some c)
    (hd : (s.pipe c.toNat).enabled = false) (h : exec i s = .next t) : t.pipe c.toNat = s.pipe c.toNat := by
  obtain ⟨k, -, he⟩ := exec_rxRule hi
  rw [he] at h
  rcases rxGate_cases c s k with ⟨-, hen, -⟩ | ⟨-, -, hg⟩ | ⟨-, hg⟩
  · cases hd.symm.trans hen
  · cases hg.symm.trans h
    rfl
  · cases hg.symm.trans h
    rfl

/-- R78: a pipeline with a pending inflation before (`p`) and after (`q`) instruction `i`: at most `run` differs, or `i` is
the inflater's answer and `infl_state` differs. -/
def InflationKept (c : PipeId) (p : Pipe) (i : Instr) (q : Pipe) : Prop :=
  (∃ r, q = { p with run := r }) ∨ ∃ ok n st, i = .inflDone c ok n ∧ q = { p with inflState := st }

theorem PipeMove.inflationKept {cfg : Config} {c : PipeId} {p q : Pipe} {i : Instr} (h : PipeMove cfg c p i q)
    (hi : i.rxPipe = none) (hs : i ≠ .pipeStart c) (hp : p.inflState = .inflPending) : InflationKept c p i q := by
  cases h with
  | stream hx => cases hi.symm.trans hx
  | closed | error => cases hi
  | start => exact absurd rfl hs
  | stop => exact .inl ⟨false, rfl⟩
  | ack =>
    rcases ackPipe_cases c p with ⟨hn, -, -⟩ | ⟨-, he⟩
    · exact absurd hp hn
    · exact .inl ⟨p.run, by rw [he]⟩
  | answer ok n =>
    rcases inflateAnswer_cases c ok n p with ⟨-, -, he⟩ | ⟨-, he⟩ <;> rw [he] <;> exact .inr ⟨ok, n, _, rfl, rfl⟩

theorem exec_inflationKept {i : Instr} {c : PipeId} {s t : State} (h : exec i s = .next t) (hr : i ≠ .reset)
    (hs : i ≠ .pipeStart c) (hp : (s.pipe c.toNat).inflState = .inflPending) :
    InflationKept c (s.pipe c.toNat) i (t.pipe c.toNat) := by
  have hsame : t.pipe c.toNat = s.pipe c.toNat → InflationKept c (s.pipe c.toNat) i (t.pipe c.toNat) :=
    fun he => .inl ⟨_, he⟩
  by_cases hi : i.pipeOf = some c
  · cases hx : i.rxPipe with
    | some c' =>
      obtain rfl : c' = c := Option.some.inj ((pipeOf_of_rxPipe hx).symm.trans hi)
      exact hsame (exec_rx_disabled hx (by simp [Pipe.enabled, hp]) h)
    | none => exact (exec_pipeMove hi h).elim hsame fun hm => hm.inflationKept hx hs hp
  · refine hsame (pipelinesPrivate i s t c.toNat h hr fun c' hc' he => hi ?_)
    rw [hc', BitVec.eq_of_toNat_eq he]

/-- Settles O57: the inflater reads neither `run` nor anything that its own answer does not end. -/
theorem inflationStable : Obligations.InflationStable := by
  intro i s t c p hp h hr hs
  rcases exec_inflationKept h hr hs hp with ⟨r, hq⟩ | ⟨ok, n, st, hi, hq⟩ <;> rw [hq]
  · exact ⟨r, .inflPending, by rw [← hp], fun _ => ⟨rfl, rfl⟩⟩
  · exact ⟨p.run, st, rfl, fun hne => absurd hi (hne ok n)⟩

end Sys2Proof.Machine
end

section
/-! SUPPORT. R72: instructions that own different slots of the state (a pipeline, a lock entry) commute. An instruction owns
a slot when its outcome, its outputs and what it writes are a function of the configuration and the slot's content, and it
writes nothing else; `pipeSlot_owns` and `itemSlot_owns` say that every instruction of a pipeline or an item does. -/

namespace Sys2Proof.Machine

open Host (Outcome)

/-! ## Slots of the state -/

/-- A part of the state that can be read and written apart from the configuration and the outputs. -/
structure Slot (α : Type) where
  get : State → α
  put : State → α → State
  put_cfg : ∀ s v, (put s v).cfg = s.cfg
  get_out : ∀ s o, get { s with out := o } = get s
  put_out : ∀ s v o, put { s with out := o } v = { put s v with out := o }

/-- R20: `pipe[c]`. -/
def pipeSlot (c : PipeId) : Slot Pipe :=
  ⟨(·.pipe c.toNat), (·.setPipe c.toNat), fun _ _ => rfl, fun _ _ => rfl, fun _ _ _ => rfl⟩

/-- R41: `lock[item]`. -/
def itemSlot (item : BitVec 16) : Slot LockEntry :=
  ⟨(·.lock item.toNat), (·.setLock item.toNat), fun _ _ => rfl, fun _ _ => rfl, fun _ _ _ => rfl⟩

/-- What an instruction does with its slot: what it writes there, if anything, and its outputs; or a fault. -/
abbrev Answer (α : Type) := Except Fault (Option α × Outputs)

/-- Write the slot, or nothing. -/
def Slot.write {α : Type} (l : Slot α) (s : State) : Option α → State
  | none => s
  | some v => l.put s v

/-- The outcome of an answer: the slot written and the outputs of the step, or the fault. -/
def Slot.finish {α : Type} (l : Slot α) (s : State) : Answer α → Outcome State Fault Refusal
  | .ok (v, o) => .next { l.write s v with out := o }
  | .error r => .fault r

/-- Instruction `i` reads and writes no part of the state but slot `l`, the configuration and the outputs. -/
def Slot.Owns {α : Type} (l : Slot α) (i : Instr) : Prop :=
  ∃ f : Config → α → Answer α, ∀ s, exec i s = l.finish s (f s.cfg (l.get s))

/-- Neither of two slots sees a write of the other, and the order of two writes is not seen. -/
structure Slot.Separate {α β : Type} (l : Slot α) (m : Slot β) (s : State) : Prop where
  get_right : ∀ v, m.get (l.put s v) = m.get s
  get_left : ∀ w, l.get (m.put s w) = l.get s
  put_comm : ∀ v w, m.put (l.put s v) w = l.put (m.put s w) v

section
variable {α β : Type} {l : Slot α} {m : Slot β} {s : State}

theorem Slot.write_cfg (l : Slot α) (s : State) (v : Option α) : (l.write s v).cfg = s.cfg := by
  cases v with
  | none => rfl
  | some v => exact l.put_cfg s v

theorem Slot.write_out (l : Slot α) (s : State) (v : Option α) (o : Outputs) :
    l.write { s with out := o } v = { l.write s v with out := o } := by
  cases v with
  | none => rfl
  | some v => exact l.put_out s v o

theorem Slot.Separate.symm (h : l.Separate m s) : m.Separate l s :=
  ⟨h.get_left, h.get_right, fun v w => (h.put_comm w v).symm⟩

theorem Slot.Separate.get_write (h : l.Separate m s) (v : Option α) : m.get (l.write s v) = m.get s := by
  cases v with
  | none => rfl
  | some v => exact h.get_right v

theorem Slot.Separate.write_comm (h : l.Separate m s) (v : Option α) (w : Option β) :
    m.write (l.write s v) w = l.write (m.write s w) v := by
  cases v with
  | none => rfl
  | some v =>
    cases w with
    | none => rfl
    | some w => exact h.put_comm v w

/-- An instruction does the same after a write to a slot it does not own. -/
theorem Slot.Separate.finish_after (h : l.Separate m s) (g : Config → β → Answer β) {w : Option β} {o' : Outputs}
    (hg : g s.cfg (m.get s) = .ok (w, o')) (v : Option α) (o : Outputs) :
    m.finish { l.write s v with out := o } (g (l.write s v).cfg (m.get { l.write s v with out := o })) =
      .next { m.write (l.write s v) w with out := o' } := by
  rw [m.get_out, h.get_write, l.write_cfg, hg, Slot.finish, m.write_out]

theorem Slot.finish_next {r : Answer α} {t : State} (h : l.finish s r = .next t) : ∃ v o, r = .ok (v, o) := by
  cases r with
  | error => cases h
  | ok a => exact ⟨a.1, a.2, rfl⟩

/-- R72: owners of separate slots commute, and each has the outputs it has alone. -/
theorem Slot.Separate.commute {i j : Instr} (h : l.Separate m s) (hi : l.Owns i) (hj : m.Owns j)
    (hit : ∃ t, exec i s = .next t) (hjt : ∃ t, exec j s = .next t) :
    ∃ s1 s12 s2 s21, exec i s = .next s1 ∧ exec j s1 = .next s12 ∧ exec j s = .next s2 ∧ exec i s2 = .next s21 ∧
      { s12 with out := .empty } = { s21 with out := .empty } ∧ s1.out = s21.out ∧ s12.out = s2.out := by
  obtain ⟨f, hf⟩ := hi
  obtain ⟨g, hg⟩ := hj
  obtain ⟨t, ht⟩ := hit
  obtain ⟨u, hu⟩ := hjt
  obtain ⟨v, o, hv⟩ := Slot.finish_next ((hf s).symm.trans ht)
  obtain ⟨w, o', hw⟩ := Slot.finish_next ((hg s).symm.trans hu)
  refine ⟨{ l.write s v with out := o }, { m.write (l.write s v) w with out := o' }, { m.write s w with out := o' },
    { l.write (m.write s w) v with out := o }, ?_, ?_, ?_, ?_, ?_, rfl, rfl⟩
  · rw [hf, hv, Slot.finish]
  · rw [hg]
    exact h.finish_after g hw v o
  · rw [hg, hw, Slot.finish]
  · rw [hf]
    exact h.symm.finish_after f hv w o'
  · rw [h.write_comm]

end

/-! ## Separate slots -/

/-- Writes of a table at different keys, in either order. -/
theorem Table.set_comm {α : Type} [DecidableEq α] {d : α} {m : List (Nat × α)} (h : Table.wf d m = true) {j k : Nat}
    (hjk : j ≠ k) (v w : α) : Table.set d (Table.set d m j v) k w = Table.set d (Table.set d m k w) j v := by
  refine Table.ext (Table.wf_set k w (Table.wf_set j v h)) (Table.wf_set j v (Table.wf_set k w h)) fun n => ?_
  simp only [Table.get_set]
  by_cases hk : n = k
  · rw [if_pos hk, if_neg fun hj => hjk (hj.symm.trans hk), if_pos hk]
  · rw [if_neg hk, if_neg hk]

theorem pipeSlot_separate {s : State} (h : Inv s) {c c' : PipeId} (hc : c ≠ c') :
    (pipeSlot c).Separate (pipeSlot c') s := by
  have hne : c.toNat ≠ c'.toNat := fun he => hc (BitVec.eq_of_toNat_eq he)
  exact ⟨fun _ => Table.get_set_ne _ _ _ hne.symm, fun _ => Table.get_set_ne _ _ _ hne, fun v w =>
    congrArg (fun ps => { s with pipes := ps }) (Table.set_comm h.pipesWf hne v w)⟩

theorem itemSlot_separate {s : State} (h : Inv s) {a b : BitVec 16} (hab : a ≠ b) :
    (itemSlot a).Separate (itemSlot b) s := by
  have hne : a.toNat ≠ b.toNat := fun he => hab (BitVec.eq_of_toNat_eq he)
  exact ⟨fun _ => Table.get_set_ne _ _ _ hne.symm, fun _ => Table.get_set_ne _ _ _ hne, fun v w =>
    congrArg (fun ls => { s with locks := ls }) (Table.set_comm h.locksWf hne v w)⟩

theorem pipeSlot_separate_itemSlot (s : State) (c : PipeId) (a : BitVec 16) : (pipeSlot c).Separate (itemSlot a) s :=
  ⟨fun _ => rfl, fun _ => rfl, fun _ _ => rfl⟩

/-! ## Instructions of a pipeline own it -/

/-- What a stream operation's effect writes, and its outputs added to `out`. -/
def PipeEffect.answer (out : Outputs) (e : PipeEffect) : Option Pipe × Outputs :=
  (some e.pipe, { out with events := out.events ++ e.events, inflateRequest := e.request })

/-- R111: the answer of a receive instruction whose meaning is `g`. -/
def rxAnswer (c : PipeId) (g : Config → Pipe → Answer Pipe) (cfg : Config) (p : Pipe) : Answer Pipe :=
  if c.toNat < cfg.nConn then (if p.enabled then g cfg p else .ok (none, .empty)) else .ok (none, refusal .rxu)

/-- R96, R97, R100: the answer of a request at port `port` that carries out `f` where `taken` holds and the pipeline
exists, and is refused otherwise. -/
def requestAnswer (c : PipeId) (port : Port) (taken : Pipe → Bool) (f : Pipe → PipeEffect) (cfg : Config) (p : Pipe) :
    Answer Pipe :=
  .ok <| if decide (c.toNat < cfg.nConn) && taken p then (f p).answer .empty else (none, refusal port)

theorem RxRule.answer {c : PipeId} {i : Instr} {k : State → Outcome State Fault Refusal} (h : RxRule c i k) :
    ∃ g : Config → Pipe → Answer Pipe, ∀ s, k s.begin = (pipeSlot c).finish s (g s.cfg (s.pipe c.toNat)) := by
  cases h with
  | quiet g => exact ⟨fun _ _ => .ok (none, g .empty), fun _ => rfl⟩
  | dead kind => exact ⟨fun _ p => .ok (some { p with alive := false }, eventsOnly [.connDead c kind]), fun _ => rfl⟩
  | @stream f op _ =>
    refine ⟨fun cfg p => (op cfg p).map (PipeEffect.answer (streamOut c f [])), fun s => ?_⟩
    simp only [State.begin_cfg, State.begin_pipe]
    cases op s.cfg (s.pipe c.toNat) <;> rfl

theorem rxGate_answer {c : PipeId} {k : State → Outcome State Fault Refusal} {g : Config → Pipe → Answer Pipe}
    (hk : ∀ s, k s.begin = (pipeSlot c).finish s (g s.cfg (s.pipe c.toNat))) (s : State) :
    rxGate c s k = (pipeSlot c).finish s (rxAnswer c g s.cfg (s.pipe c.toNat)) := by
  rcases rxGate_cases c s k with ⟨hc, he, hg⟩ | ⟨hc, he, hg⟩ | ⟨hc, hg⟩ <;> rw [hg, rxAnswer]
  · rw [if_pos ((s.hasPipe_iff c).1 hc), if_pos he, hk]
  · rw [if_pos ((s.hasPipe_iff c).1 hc), if_neg (by simp [he])]
    rfl
  · rw [if_neg (of_decide_eq_false hc), badRequest_eq]
    rfl

theorem requestAnswer_state (c : PipeId) (port : Port) (taken : Pipe → Bool) (f : Pipe → PipeEffect) (s : State)
    (p : Pipe) : requestAnswer c port taken f s.cfg p =
      .ok (if s.hasPipe c && taken p then (f p).answer .empty else (none, refusal port)) := rfl

theorem controlPipe_answer (c : PipeId) (f : Pipe → PipeEffect) (s : State) :
    controlPipe c f s =
      (pipeSlot c).finish s (requestAnswer c .ctl (fun _ => true) f s.cfg (s.pipe c.toNat)) := by
  rw [requestAnswer_state, Bool.and_true, controlPipe, badRequest_eq]
  split <;> rfl

theorem execInflDone_answer (c : PipeId) (ok : Bool) (outLen : BitVec 32) (s : State) :
    execInflDone c ok outLen s = (pipeSlot c).finish s
      (requestAnswer c .inf (·.inflState == .inflPending) (inflateAnswer c ok outLen) s.cfg (s.pipe c.toNat)) := by
  rw [requestAnswer_state, execInflDone, badRequest_eq]
  split <;> rfl

/-- R72: an instruction of a pipeline reads and writes nothing but that pipeline. -/
theorem pipeSlot_owns {i : Instr} {c : PipeId} (hi : i.pipeOf = some c) : (pipeSlot c).Owns i := by
  cases hx : i.rxPipe with
  | some c' =>
    obtain rfl : c' = c := Option.some.inj ((pipeOf_of_rxPipe hx).symm.trans hi)
    obtain ⟨k, hk, he⟩ := exec_rxRule hx
    obtain ⟨g, hg⟩ := hk.answer
    exact ⟨rxAnswer c' g, fun s => (he s).trans (rxGate_answer hg s)⟩
  | none =>
    cases i with
    | pipeStart | pipeStop | cdsAck =>
      cases hi
      exact ⟨_, fun s => controlPipe_answer ..⟩
    | inflDone _ ok n =>
      cases hi
      exact ⟨_, fun s => execInflDone_answer ..⟩
    | _ => cases hx.symm.trans hi

/-! ## Instructions of an item own its lock entry -/

/-- The outputs of a lock operation that answers `ok`. -/
def lockOut (ok : Bool) (es : List Event) : Outputs := { eventsOnly es with lockResponse := some ⟨ok, false⟩ }

/-- R237, R238: the answer of a lock operation on entry `e` whose rule answers `r`. -/
def ruleAnswer (op : LockOp) (item : BitVec 16) (o : ObjectId) (e : LockEntry) :
    Option LockEntry → Option LockEntry × Outputs
  | none => (none, lockOut false [.lockFail item op o])
  | some new => if new = e then (none, lockOut true []) else (some new, lockOut true [.lockChanged item e new])

/-- R230, R235: the answer of a lock-port request, `a` where the item exists and the request is well-formed. -/
def lockAnswer (item : BitVec 16) (wellFormed : Bool) (a : LockEntry → Option LockEntry × Outputs) (cfg : Config)
    (e : LockEntry) : Answer LockEntry :=
  .ok <| if cfg.hasLock && decide (item.toNat < cfg.nItems) && wellFormed then a e else (none, refusal .lk)

theorem lockAnswer_state (item : BitVec 16) (wellFormed : Bool) (a : LockEntry → Option LockEntry × Outputs) (s : State)
    (e : LockEntry) : lockAnswer item wellFormed a s.cfg e =
      .ok (if s.hasItem item && wellFormed then a e else (none, refusal .lk)) := rfl

theorem lockOperation_answer (op : LockOp) (f : ObjectId → LockEntry → Option LockEntry) (item : BitVec 16)
    (o : ObjectId) (s : State) :
    .next (lockOperation op f item o s) = (itemSlot item).finish s
      (lockAnswer item (!o.illFormed) (fun e => ruleAnswer op item o e (f o e)) s.cfg (s.lock item.toNat)) := by
  rw [lockAnswer_state]
  rcases lockOperation_cases op f item o s with ⟨hbad, he⟩ | ⟨hitem, ho, hrun⟩
  · rw [he, if_neg (by rcases hbad with h | h <;> simp [h]), badRequest_eq]
    rfl
  · rw [if_pos (by simp [hitem, ho])]
    rcases hrun with ⟨hr, he⟩ | ⟨hr, he⟩ | ⟨new, hr, hne, he⟩ <;> rw [he, hr, ruleAnswer]
    · rfl
    · rw [if_pos rfl]
      rfl
    · rw [if_neg hne]
      rfl

theorem execIsinuse_answer (item : BitVec 16) (s : State) :
    execIsinuse item s = (itemSlot item).finish s
      (lockAnswer item true (fun e => (none, { Outputs.empty with lockResponse := some ⟨true, entryInUse e⟩ })) s.cfg
        (s.lock item.toNat)) := by
  rw [lockAnswer_state, Bool.and_true, execIsinuse, badRequest_eq]
  split <;> rfl

/-- R72: a lock-port instruction reads and writes nothing but its item's entry. -/
theorem itemSlot_owns {i : Instr} {a : BitVec 16} (hi : i.itemOf = some a) : (itemSlot a).Owns i := by
  cases i with
  | isinuse =>
    cases hi
    exact ⟨_, fun s => execIsinuse_answer ..⟩
  | reserve | lock | release =>
    cases hi
    exact ⟨_, fun s => lockOperation_answer ..⟩
  | _ => cases hi

/-- Settles O22: the two instructions own separate slots, and the invariants make both answer. -/
theorem independentCommute : Obligations.IndependentCommute := by
  intro s i j hs hij
  have answers := exec_answers hs.pipes
  rcases hij with ⟨c, c', hi, hj, hne⟩ | ⟨a, b, hi, hj, hne⟩ | ⟨c, a, hi, hj⟩
  · exact (pipeSlot_separate hs hne).commute (pipeSlot_owns hi) (pipeSlot_owns hj) (answers i) (answers j)
  · exact (itemSlot_separate hs hne).commute (itemSlot_owns hi) (itemSlot_owns hj) (answers i) (answers j)
  · exact (pipeSlot_separate_itemSlot s c a).commute (pipeSlot_owns hi) (itemSlot_owns hj) (answers i) (answers j)

end Sys2Proof.Machine
end

section
/-! SUPPORT. 30_encoding.md: the wire frame (R81 to R85). `wireFrame` is the frame that a word with a legal length byte
carries; its parts are read from the word, and `decodeFrame` answers it. -/

namespace Sys2Proof

open Machine

/-! ## Frames by their parts -/

/-- R83: identifier, length and payload are the command, the header and the body. -/
theorem mkFrame_eta (f : Frame) : mkFrame f.cmd f.header f.body = f := by
  have hid : frameId f.header f.cmd = f.id := by
    apply BitVec.eq_of_toNat_eq
    simp only [frameId_toNat, Frame.header, Frame.prio, Frame.b25, Frame.resp, Frame.hash, Frame.cmd,
      extractLsb'_toNat_div, getLsbD_eq_decide, toNat_decide_mod_two]
    have := f.id.isLt
    omega
  simp only [mkFrame, hid, Frame.body]

/-- R88: a frame of the config-data stream of length 8 is the frame of its header and its eight bytes. -/
theorem cds8Frame_eta {f : Frame} (hm : f.cmd = cfgDataCmd) (hl : f.len.val = 8) :
    cds8Frame f.header f.payload = f := by
  have hlen : f.len = 8 := Fin.ext hl
  have h := mkFrame_eta f
  rwa [hm, Frame.body, hlen] at h

/-- R86: a 32-bit field of the payload is four of its bytes. -/
theorem annTotal_eq (f : Frame) : f.annTotal =
    be32 (payloadByte f.payload 0) (payloadByte f.payload 1) (payloadByte f.payload 2) (payloadByte f.payload 3) := by
  unfold be32 payloadByte Frame.annTotal
  rw [extractLsb'_join _ 48 8 8, extractLsb'_join _ 40 16 8, extractLsb'_join _ 32 24 8]

theorem annCrc_eq (f : Frame) : f.annCrc = payloadByte f.payload 4 ++ payloadByte f.payload 5 :=
  (extractLsb'_join f.payload 16 8 8).symm

/-- R117: what `keepBytes` leaves is in canonical form. -/
theorem canonical_keepBytes (len : Fin 9) (d : BitVec 64) : (Body.mk len (keepBytes len.val d)).canonical = true := by
  simp [Body.canonical]

theorem keepBytes_of_canonical {f : Frame} (h : f.canonical = true) : keepBytes f.len.val f.payload = f.payload :=
  eq_of_beq h

/-! ## The frame of a wire word -/

/-- R114: the frame of a word with a legal length byte. -/
def wireFrame (w : WireWord) (h : (wireByte w 4).toNat ≤ 8) : Frame :=
  ⟨w.extractLsb' 72 29, ⟨(wireByte w 4).toNat, Nat.lt_succ_of_le h⟩,
    keepBytes (wireByte w 4).toNat (w.extractLsb' 0 64)⟩

theorem decodeFrame_ok {w : WireWord} (h : (wireByte w 4).toNat ≤ 8) : decodeFrame w = .ok (wireFrame w h) := by
  have hid : (w.extractLsb' 72 32).extractLsb' 0 29 = w.extractLsb' 72 29 := extractLsb'_field w 72 32 0 29 (by decide)
  refine (dif_pos h).trans ?_
  rw [hid]
  rfl

theorem decodeFrame_error {w : WireWord} (h : 8 < (wireByte w 4).toNat) : decodeFrame w = .error (wireByte w 4) :=
  dif_neg (Nat.not_le.2 h)

theorem wireFrame_canonical {w : WireWord} (h : (wireByte w 4).toNat ≤ 8) : (wireFrame w h).canonical = true :=
  canonical_keepBytes ..

theorem wireFrame_cmd {w : WireWord} (h : (wireByte w 4).toNat ≤ 8) : (wireFrame w h).cmd = w.extractLsb' 89 8 :=
  extractLsb'_field w 72 29 17 8 (by decide)

theorem wireFrame_header {w : WireWord} (h : (wireByte w 4).toNat ≤ 8) : (wireFrame w h).header = wireHeader w := by
  have hprio : (w.extractLsb' 72 29).extractLsb' 26 3 = w.extractLsb' 98 3 := extractLsb'_field w 72 29 26 3 (by decide)
  have hhash : (w.extractLsb' 72 29).extractLsb' 0 16 = w.extractLsb' 72 16 := extractLsb'_field w 72 29 0 16 (by decide)
  simp only [Frame.header, Frame.prio, Frame.b25, Frame.resp, Frame.hash, wireFrame, wireHeader, hprio, hhash]
  simp

/-- R85: the payload bytes are those of the word, with the padding cleared. -/
theorem payloadByte_wireFrame {w : WireWord} (h : (wireByte w 4).toNat ≤ 8) {i : Nat} (hi : i < 8) :
    payloadByte (wireFrame w h).payload i = keptByte w i := by
  rw [wireFrame, payloadByte_keepBytes _ h _ _ hi, payloadByte_wire w i hi, keptByte]

theorem keptByte_of_lt {w : WireWord} {i : Nat} (h : i < (wireByte w 4).toNat) : keptByte w i = wireByte w (5 + i) :=
  if_pos h

theorem wireFrame_payload_full {w : WireWord} (h : (wireByte w 4).toNat ≤ 8) (h8 : (wireByte w 4).toNat = 8) :
    (wireFrame w h).payload = w.extractLsb' 0 64 :=
  payload_ext fun i hi => by
    rw [payloadByte_wireFrame h hi, keptByte_of_lt (by omega), payloadByte_wire w i hi]

/-! ## The word of a frame -/

theorem encodeFrame_id (flags : BitVec 3) (f : Frame) : (encodeFrame flags f).extractLsb' 72 29 = f.id := by
  unfold encodeFrame
  rw [extractLsb'_append_high _ _ 72 29 (by decide), extractLsb'_append_high _ _ (72 - 64) 29 (by decide),
    extractLsb'_append_low _ _ _ 29 (by decide), extractLsb'_whole]

theorem encodeFrame_lenByte (flags : BitVec 3) (f : Frame) :
    wireByte (encodeFrame flags f) 4 = BitVec.ofNat 8 f.len.val := by
  unfold wireByte encodeFrame
  rw [extractLsb'_append_high _ _ _ 8 (by decide), extractLsb'_append_low _ _ _ 8 (by decide), extractLsb'_whole]

theorem encodeFrame_payload (flags : BitVec 3) (f : Frame) :
    (encodeFrame flags f).extractLsb' 0 64 = keepBytes f.len.val f.payload := by
  unfold encodeFrame
  rw [extractLsb'_append_low _ _ 0 64 (by decide), extractLsb'_whole]

theorem encodeFrame_len_toNat (flags : BitVec 3) (f : Frame) : (wireByte (encodeFrame flags f) 4).toNat = f.len.val := by
  have := f.len.isLt
  rw [encodeFrame_lenByte, BitVec.toNat_ofNat]
  omega

/-- R117: decoding the word of a canonical frame gives the frame back, whatever the transport flags. -/
theorem decodeFrame_encodeFrame {f : Frame} (h : f.canonical = true) (flags : BitVec 3) :
    decodeFrame (encodeFrame flags f) = .ok f := by
  have hlen := encodeFrame_len_toNat flags f
  have hle : (wireByte (encodeFrame flags f) 4).toNat ≤ 8 := by have := f.len.isLt; omega
  rw [decodeFrame_ok hle]
  simp only [wireFrame, encodeFrame_id, hlen, encodeFrame_payload, keepBytes_of_canonical h]

end Sys2Proof
end

section
/-! SUPPORT. 30_encoding.md: which instruction a frame is (R87 to R90). -/

namespace Sys2Proof

open Machine

/-! ## Commands and handlers -/

/-- R87: the commands of the table other than `CFG_DATA`, with their instructions. -/
def commandRows : List (BitVec 8 × (PipeId → Header → Body → Instr)) :=
  [(0x00, .system), (0x01, .discovery), (0x02, .bind), (0x03, .verify), (0x04, .speed), (0x05, .direction),
   (0x06, .function), (0x07, .readConfig), (0x08, .writeConfig), (0x0B, .accSwitch), (0x10, .s88A), (0x11, .s88B),
   (0x18, .ping), (0x1B, .bootloader), (0x1D, .cfgStatus), (0x1E, .vendor1E), (0x1F, .vendor1F), (0x20, .vendor20),
   (0x22, .vendor22)]

/-- R132: a command outside the table has no handler. -/
theorem handlerOf_eq_zero {m : BitVec 8} (hs : m ≠ cfgDataCmd) (hm : m ∉ commandRows.map Prod.fst) :
    handlerOf m = 0 := by
  have hrow : m.toNat ∉ (cfgDataCmd :: commandRows.map Prod.fst).map BitVec.toNat := fun h => by
    obtain ⟨k, hk, hkm⟩ := List.mem_map.1 h
    obtain rfl := BitVec.eq_of_toNat_eq hkm
    exact (List.mem_cons.1 hk).elim hs hm
  unfold handlerOf
  split
  case h_21 => rfl
  all_goals exact absurd (by rw [‹m.toNat = _›]; decide) hrow

theorem handlerOf_le (m : BitVec 8) : (handlerOf m).toNat ≤ 20 := by
  unfold handlerOf
  split <;> decide

/-- R132: handler 19 is the config-data stream's alone. -/
theorem cmd_of_handlerOf_stream {m : BitVec 8} (h : (handlerOf m).toNat = 19) : m = cfgDataCmd := by
  unfold handlerOf at h
  split at h
  case h_19 hm => exact BitVec.eq_of_toNat_eq hm
  all_goals exact absurd h (by decide)

/-! ## The instruction of a frame -/

section
variable {cfg : Config} {c : PipeId} {f : Frame}

theorem instrOfFrame_command : ∀ e ∈ commandRows, f.cmd = e.1 → instrOfFrame cfg c f = e.2 c f.header f.body := by
  simp +contextual [commandRows, instrOfFrame, handlerOf]

theorem instrOfFrame_unknown (h : handlerOf f.cmd = 0) :
    instrOfFrame cfg c f = .unknown c f.cmd f.header f.body := by
  simp [instrOfFrame, h]

theorem instrOfFrame_ann6 (hm : f.cmd = cfgDataCmd) (hl : f.len.val = 6) :
    instrOfFrame cfg c f = .cdsAnn6 c f.header f.annTotal f.annCrc := by
  simp [instrOfFrame, hm, handlerOf, cfgDataCmd, hl]

theorem instrOfFrame_ann7 (hm : f.cmd = cfgDataCmd) (hl : f.len.val = 7) :
    instrOfFrame cfg c f = .cdsAnn7 c f.header f.annTotal f.annCrc f.annFlag := by
  simp [instrOfFrame, hm, handlerOf, cfgDataCmd, hl]

theorem instrOfFrame_trig (hm : f.cmd = cfgDataCmd) (hl : f.len.val = 8) (ht : triggerMatch cfg f = true) :
    instrOfFrame cfg c f = .cdsTrig c f.header f.payload := by
  simp [instrOfFrame, hm, handlerOf, cfgDataCmd, hl, ht]

theorem instrOfFrame_data (hm : f.cmd = cfgDataCmd) (hl : f.len.val = 8) (ht : triggerMatch cfg f = false) :
    instrOfFrame cfg c f = .cdsData c f.header f.payload := by
  simp [instrOfFrame, hm, handlerOf, cfgDataCmd, hl, ht]

theorem instrOfFrame_short (hm : f.cmd = cfgDataCmd) (hl : f.len.val ≤ 5) :
    instrOfFrame cfg c f = .cdsShort c f.header f.body := by
  have h19 : (handlerOf f.cmd).toNat = 19 := by rw [hm]; rfl
  unfold instrOfFrame
  rw [h19]
  simp only
  split
  case h_4 => rfl
  all_goals omega

end

/-! ## The instruction of a wire word -/

section
variable (cfg : Config) (c : PipeId) {w : WireWord}

theorem decodeWire_ok (h : (wireByte w 4).toNat ≤ 8) : decodeWire cfg c w = instrOfFrame cfg c (wireFrame w h) := by
  simp only [decodeWire, decodeFrame_ok h]

theorem decodeWire_illen (h : 8 < (wireByte w 4).toNat) : decodeWire cfg c w = .illen c (wireByte w 4) := by
  simp only [decodeWire, decodeFrame_error h]

end

/-- Settles O6: the frame of the word has the word's command, header and kept bytes. -/
theorem commandMap : Obligations.CommandMap := by
  intro cfg c w h
  refine ⟨(wireFrame w h).body, rfl, fun i hi => payloadByte_wireFrame h hi, fun e he hm => ?_, fun hs hm => ?_⟩
  · rw [decodeWire_ok cfg c h, instrOfFrame_command e he ((wireFrame_cmd h).trans hm), wireFrame_header]
  · have h0 : handlerOf (wireFrame w h).cmd = 0 := wireFrame_cmd h ▸ handlerOf_eq_zero hs hm
    rw [decodeWire_ok cfg c h, instrOfFrame_unknown h0, wireFrame_cmd, wireFrame_header]

/-- R88: a word of length 8 carries the frame of the stream that `TRIGGER_MATCH` is asked about. -/
theorem wireFrame_eq_cds8Frame {w : WireWord} (h : (wireByte w 4).toNat ≤ 8) (hm : w.extractLsb' 89 8 = cfgDataCmd)
    (h8 : (wireByte w 4).toNat = 8) : wireFrame w h = cds8Frame (wireHeader w) (w.extractLsb' 0 64) := by
  rw [← cds8Frame_eta (f := wireFrame w h) ((wireFrame_cmd h).trans hm) h8, wireFrame_header,
    wireFrame_payload_full h h8]

/-- Settles O7: one sub-form for each length, its operands read off the bytes below the length. -/
theorem streamForms : Obligations.StreamForms := by
  intro cfg c w hm h b total crc d f
  have hcmd : (wireFrame w h).cmd = cfgDataCmd := (wireFrame_cmd h).trans hm
  have hbyte (i : Nat) (hi : i < (b 4).toNat) : payloadByte (wireFrame w h).payload i = b (5 + i) := by
    rw [payloadByte_wireFrame h (Nat.lt_of_lt_of_le hi h), keptByte_of_lt hi]
  have htotal (h6 : 6 ≤ (b 4).toNat) : (wireFrame w h).annTotal = total := by
    rw [annTotal_eq, hbyte 0 (by omega), hbyte 1 (by omega), hbyte 2 (by omega), hbyte 3 (by omega)]
  have hcrc (h6 : 6 ≤ (b 4).toNat) : (wireFrame w h).annCrc = crc := by
    rw [annCrc_eq, hbyte 4 (by omega), hbyte 5 (by omega)]
  rw [decodeWire_ok cfg c h, ← wireFrame_header h]
  refine ⟨fun h6 => ?_, fun h7 => ?_, fun h8 ht => ?_, fun h8 ht => ?_, fun h5 => ?_⟩
  · rw [instrOfFrame_ann6 hcmd h6, htotal h6.ge, hcrc h6.ge]
  · rw [instrOfFrame_ann7 hcmd h7, htotal (by omega), hcrc (by omega), Frame.annFlag, hbyte 6 (by omega)]
  · rw [instrOfFrame_trig hcmd h8, wireFrame_payload_full h h8]
    rw [wireFrame_eq_cds8Frame h hm h8]
    exact List.contains_iff_mem.2 ht
  · rw [instrOfFrame_data hcmd h8, wireFrame_payload_full h h8]
    rw [wireFrame_eq_cds8Frame h hm h8]
    exact Bool.eq_false_iff.2 fun hc => ht (List.contains_iff_mem.1 hc)
  · exact ⟨(wireFrame w h).body, rfl, fun i hi => payloadByte_wireFrame h hi, instrOfFrame_short hcmd h5⟩

/-- R82, R85: identifier, length byte and kept bytes fix the frame. -/
theorem wireFrame_congr {w w' : WireWord} (h : (wireByte w 4).toNat ≤ 8) (h' : (wireByte w' 4).toNat ≤ 8)
    (hid : w.extractLsb' 72 29 = w'.extractLsb' 72 29) (hlen : wireByte w 4 = wireByte w' 4)
    (hkept : ∀ i < 8, keptByte w i = keptByte w' i) : wireFrame w h = wireFrame w' h' := by
  have hpayload : (wireFrame w h).payload = (wireFrame w' h').payload :=
    payload_ext fun i hi => by rw [payloadByte_wireFrame h hi, payloadByte_wireFrame h' hi, hkept i hi]
  have hl : (wireFrame w h).len = (wireFrame w' h').len := Fin.ext (congrArg (·.toNat) hlen)
  exact Frame.mk.injEq .. ▸ ⟨hid, hl, hpayload⟩

/-- Settles O8: the agreeing bits fix the frame, or the length byte that is refused. -/
theorem ignoredBits : Obligations.IgnoredBits := by
  intro cfg c w w' hid hlen hbytes
  by_cases h : (wireByte w 4).toNat ≤ 8
  · have h' : (wireByte w' 4).toNat ≤ 8 := hlen ▸ h
    have hkept (i : Nat) (hi : i < 8) : keptByte w i = keptByte w' i := by
      unfold keptByte
      rw [← hlen]
      exact ite_congr rfl (hbytes i hi) fun _ => rfl
    rw [decodeWire_ok cfg c h, decodeWire_ok cfg c h', wireFrame_congr h h' hid hlen hkept]
  · have h8 := Nat.not_le.1 h
    rw [decodeWire_illen cfg c h8, decodeWire_illen cfg c (hlen ▸ h8), hlen]

/-- Settles O10: the nine words are closed terms, and the decoder computes. -/
theorem sampleWords : Obligations.SampleWords := by
  unfold Obligations.SampleWords
  decide

end Sys2Proof
end

section
/-! SUPPORT. 30_encoding.md: the decoder and the encoder of port words undo each other (R83 to R99). -/

namespace Sys2Proof

open Machine

/-! ## Words of the lock and the cluster port -/

/-- R93, R95: the 24 bits of an `lk` or `cl` word above the object id: two operation bits, two reserved ones, the item or
cluster, the kind of the object. -/
def headBits (op : BitVec 2) (index : BitVec 16) (type : BitVec 4) : BitVec 24 := op ++ 0#2 ++ index ++ type

section
variable (op : BitVec 2) (index : BitVec 16) (type : BitVec 4)

@[simp] theorem headBits_type : (headBits op index type).extractLsb' 0 4 = type := by
  rw [headBits, extractLsb'_append_low _ _ 0 4 (by decide), extractLsb'_whole]

@[simp] theorem headBits_index : (headBits op index type).extractLsb' 4 16 = index := by
  rw [headBits, extractLsb'_append_high _ _ 4 16 (by decide), extractLsb'_append_low _ _ _ 16 (by decide),
    extractLsb'_whole]

@[simp] theorem headBits_reserved : (headBits op index type).extractLsb' 20 2 = 0#2 := by
  rw [headBits, extractLsb'_append_high _ _ 20 2 (by decide), extractLsb'_append_high _ _ _ 2 (by decide),
    extractLsb'_append_low _ _ _ 2 (by decide), extractLsb'_whole]

@[simp] theorem headBits_op : (headBits op index type).extractLsb' 22 2 = op := by
  rw [headBits, extractLsb'_append_high _ _ 22 2 (by decide), extractLsb'_append_high _ _ _ 2 (by decide),
    extractLsb'_append_high _ _ _ 2 (by decide), extractLsb'_whole]

/-- R95: the two bits of the operation, taken alone. -/
theorem headBits_opBit (i : Nat) (hi : i < 2) : (headBits op index type).getLsbD (22 + i) = op.getLsbD i := by
  have hfield : ((headBits op index type).extractLsb' 22 2).getLsbD i = (headBits op index type).getLsbD (22 + i) := by
    rw [BitVec.getLsbD_extractLsb', decide_eq_true hi, Bool.true_and]
  rw [← hfield, headBits_op]

end

theorem highBits_word (cfg : Config) (hi : BitVec 24) {id : Nat} (h : id < 2 ^ cfg.objIdBits) :
    highBits cfg (hi.toNat * 2 ^ cfg.objIdBits + id) = hi := by
  rw [highBits, Nat.mul_comm, Nat.mul_add_div (Nat.two_pow_pos _), Nat.div_eq_of_lt h, Nat.add_zero, BitVec.ofNat_toNat,
    BitVec.setWidth_eq]

theorem lowBits_word (cfg : Config) (n : Nat) {id : Nat} (h : id < 2 ^ cfg.objIdBits) :
    lowBits cfg (n * 2 ^ cfg.objIdBits + id) = id := by
  rw [lowBits, Nat.mul_comm, Nat.mul_add_mod, Nat.mod_eq_of_lt h]

theorem decode_lkWord {cfg : Config} (op : BitVec 2) (item : BitVec 16) {o : ObjectId} (h : o.id < 2 ^ cfg.objIdBits) :
    decode cfg (lkWord cfg op item o) = decodeLk (headBits op item o.type.code) o.id := by
  rw [lkWord, decode, highBits_word cfg _ h, lowBits_word cfg _ h]
  rfl

theorem decode_clWord {cfg : Config} (op o : Bool) (k : BitVec 16) {loco : ObjectId} (h : loco.id < 2 ^ cfg.objIdBits) :
    decode cfg (clWord cfg op o k loco) =
      decodeCl (headBits (BitVec.ofBool op ++ BitVec.ofBool o) k loco.type.code) loco.id := by
  rw [clWord, decode, highBits_word cfg _ h, lowBits_word cfg _ h]
  rfl

/-- R93: the reading of the operation bits of a lock-port word. -/
theorem decodeLk_headBits (op : BitVec 2) (item : BitVec 16) (o : ObjectId) :
    decodeLk (headBits op item o.type.code) o.id = .ok
      (if op = 0#2 then .isinuse item else if op = 1#2 then .reserve item o else if op = 2#2 then .lock item o
        else .release item o) := by
  simp only [decodeLk, headBits_reserved, headBits_op, headBits_index, headBits_type, ObjType.ofCode_code, if_true]
  obtain rfl | rfl | rfl | rfl : op = 0#2 ∨ op = 1#2 ∨ op = 2#2 ∨ op = 3#2 := by revert op; decide
  all_goals rfl

theorem decodeCl_headBits (op o : Bool) (k : BitVec 16) (loco : ObjectId) :
    decodeCl (headBits (BitVec.ofBool op ++ BitVec.ofBool o) k loco.type.code) loco.id =
      .ok (if op then .setOrient k o loco else .canSetOrient k o loco) := by
  have hop : (BitVec.ofBool op ++ BitVec.ofBool o).getLsbD 1 = op := by cases op <;> cases o <;> rfl
  have ho : (BitVec.ofBool op ++ BitVec.ofBool o).getLsbD 0 = o := by cases op <;> cases o <;> rfl
  simp only [decodeCl, headBits_reserved, headBits_index, headBits_type, ObjType.ofCode_code, if_true,
    headBits_opBit _ _ _ 1 (by decide), headBits_opBit _ _ _ 0 (by decide), hop, ho]
  split <;> rfl

/-! ## Words of the control and the inflate port -/

/-- R96: the reading of the operation bits of a control-port word. -/
theorem decode_ctlWord (cfg : Config) (op : BitVec 4) (c : PipeId) : decode cfg (ctlWord op c) =
    if op = 1#4 then .ok .reset else if op = 2#4 then .ok (.pipeStart c) else if op = 3#4 then .ok (.pipeStop c)
    else if op = 4#4 then .ok (.cdsAck c) else .error .ctlReserved := by
  have hop : (op ++ 0#4 ++ c).extractLsb' 20 4 = op := by
    rw [extractLsb'_append_high _ _ 20 4 (by decide), extractLsb'_append_high _ _ _ 4 (by decide), extractLsb'_whole]
  have hzero : (op ++ 0#4 ++ c).extractLsb' 16 4 = 0#4 := by
    rw [extractLsb'_append_high _ _ 16 4 (by decide), extractLsb'_append_low _ _ _ 4 (by decide), extractLsb'_whole]
  have hpipe : (op ++ 0#4 ++ c).extractLsb' 0 16 = c := by
    rw [extractLsb'_append_low _ _ 0 16 (by decide), extractLsb'_whole]
  simp only [ctlWord, decode, decodeCtl, hop, hzero, hpipe, if_true]
  have hvalue (k : BitVec 4) : op = k ↔ op.toNat = k.toNat := BitVec.toNat_inj.symm
  simp only [hvalue]
  split
  case h_5 h1 h2 h3 h4 => exact ((if_neg h1).trans ((if_neg h2).trans ((if_neg h3).trans (if_neg h4)))).symm
  all_goals simp [‹op.toNat = _›]

theorem decode_infWord (cfg : Config) (c : PipeId) (ok : Bool) (outLen : BitVec 32) :
    decode cfg (.inf (c ++ BitVec.ofBool ok ++ outLen)) = .ok (.inflDone c ok outLen) := by
  have hc : (c ++ BitVec.ofBool ok ++ outLen).extractLsb' 33 16 = c := by
    rw [extractLsb'_append_high _ _ 33 16 (by decide), extractLsb'_append_high _ _ _ 16 (by decide), extractLsb'_whole]
  have hok : (c ++ BitVec.ofBool ok ++ outLen).getLsbD 32 = ok := by
    rw [BitVec.getLsbD_append, if_neg (by decide), BitVec.getLsbD_append, if_pos (by decide)]
    cases ok <;> rfl
  have hlen : (c ++ BitVec.ofBool ok ++ outLen).extractLsb' 0 32 = outLen := by
    rw [extractLsb'_append_low _ _ 0 32 (by decide), extractLsb'_whole]
  simp only [decode, hc, hok, hlen]

/-! ## Frame words -/

/-- R117: the word of a frame in canonical form decodes to the instruction of the frame. -/
theorem decode_frameWord (cfg : Config) (c : PipeId) {f : Frame} (h : f.canonical = true) {i : Instr}
    (hi : instrOfFrame cfg c f = i) : decode cfg (frameWord c f) = .ok i := by
  simp only [frameWord, decode, decodeWire, decodeFrame_encodeFrame h, hi]

/-- R90: a word whose length byte is above 8. -/
theorem decode_illenWord (cfg : Config) (c : PipeId) {lenb : Byte} (h : 8 < lenb.toNat) :
    decode cfg (.frame c (0#32 ++ lenb ++ 0#64)) = .ok (.illen c lenb) := by
  have hlen : wireByte (0#32 ++ lenb ++ 0#64) 4 = lenb := by
    unfold wireByte
    rw [extractLsb'_append_high _ _ _ 8 (by decide), extractLsb'_append_low _ _ _ 8 (by decide), extractLsb'_whole]
  rw [decode, decodeWire_illen cfg c (hlen.symm ▸ h), hlen]

theorem ann6Frame_canonical (h : Header) (total : BitVec 32) (crc : BitVec 16) :
    (ann6Frame h total crc).canonical = true := by
  have hkeep : keepBytes 6 (ann6Payload total crc) = ann6Payload total crc := by
    apply BitVec.eq_of_toNat_eq
    simp only [keepBytes_toNat, ann6Payload, toNat_append_mul, BitVec.toNat_ofNat]
    omega
  exact beq_iff_eq.2 hkeep

theorem ann7Frame_canonical (h : Header) (total : BitVec 32) (crc : BitVec 16) (flag : Byte) :
    (ann7Frame h total crc flag).canonical = true := by
  have hkeep : keepBytes 7 (ann7Payload total crc flag) = ann7Payload total crc flag := by
    apply BitVec.eq_of_toNat_eq
    simp only [keepBytes_toNat, ann7Payload, toNat_append_mul, BitVec.toNat_ofNat]
    omega
  exact beq_iff_eq.2 hkeep

theorem cds8Frame_canonical (h : Header) (d : BitVec 64) : (cds8Frame h d).canonical = true := by
  refine beq_iff_eq.2 ?_
  simp [cds8Frame, keepBytes]

/-- Settles O1: frame words by the round trip of the wire frame, port words field by field. -/
theorem decodeEncode : Obligations.DecodeEncode := by
  intro cfg i hi
  cases i with
  | illen c lenb => exact decode_illenWord cfg c (of_decide_eq_true hi)
  | system c h b | discovery c h b | bind c h b | verify c h b | speed c h b | direction c h b | function c h b
  | readConfig c h b | writeConfig c h b | accSwitch c h b | s88A c h b | s88B c h b | ping c h b | bootloader c h b
  | cfgStatus c h b | vendor1E c h b | vendor1F c h b | vendor20 c h b | vendor22 c h b =>
    exact decode_frameWord cfg c (f := mkFrame _ h b) hi (by simp [instrOfFrame, handlerOf])
  | cdsAnn6 c h total crc =>
    refine decode_frameWord cfg c (ann6Frame_canonical h total crc) ?_
    rw [instrOfFrame_ann6 (f := ann6Frame h total crc) (mkFrame_cmd ..) rfl, ann6Frame_annTotal, ann6Frame_annCrc,
      ann6Frame, mkFrame_header]
  | cdsAnn7 c h total crc flag =>
    refine decode_frameWord cfg c (ann7Frame_canonical h total crc flag) ?_
    rw [instrOfFrame_ann7 (f := ann7Frame h total crc flag) (mkFrame_cmd ..) rfl, ann7Frame_annTotal,
      ann7Frame_annCrc, ann7Frame_annFlag, ann7Frame, mkFrame_header]
  | cdsTrig c h name =>
    refine decode_frameWord cfg c (cds8Frame_canonical h name) ?_
    rw [instrOfFrame_trig (f := cds8Frame h name) (mkFrame_cmd ..) rfl hi, cds8Frame, mkFrame_header, mkFrame_payload]
  | cdsData c h data =>
    refine decode_frameWord cfg c (cds8Frame_canonical h data) ?_
    rw [instrOfFrame_data (f := cds8Frame h data) (mkFrame_cmd ..) rfl (Bool.not_eq_true' _ ▸ hi), cds8Frame,
      mkFrame_header, mkFrame_payload]
  | cdsShort c h b =>
    obtain ⟨hb, hl⟩ := Bool.and_eq_true_iff.1 hi
    refine decode_frameWord cfg c (f := mkFrame cfgDataCmd h b) hb ?_
    rw [instrOfFrame_short (mkFrame_cmd ..) (of_decide_eq_true hl), mkFrame_header, mkFrame_body]
  | unknown c cmd h b =>
    obtain ⟨hb, h0⟩ := Bool.and_eq_true_iff.1 hi
    refine decode_frameWord cfg c (f := mkFrame cmd h b) hb ?_
    rw [instrOfFrame_unknown ((mkFrame_cmd ..).symm ▸ eq_of_beq h0), mkFrame_cmd, mkFrame_header, mkFrame_body]
  | rxFrame | rxBadsize | rxTimeout | rxClosed | rxError | encode => rfl
  | isinuse item => exact (decode_lkWord _ item (o := .unset) (Nat.two_pow_pos _)).trans (decodeLk_headBits ..)
  | reserve item o | lock item o | release item o =>
    exact (decode_lkWord _ item (of_decide_eq_true hi)).trans (decodeLk_headBits ..)
  | canSetOrient k o loco | setOrient k o loco =>
    exact (decode_clWord _ o k (of_decide_eq_true hi)).trans (decodeCl_headBits ..)
  | reset | pipeStart | pipeStop | cdsAck => exact decode_ctlWord cfg _ _
  | inflDone c ok outLen => exact decode_infWord cfg c ok outLen

/-! ## Decoded instructions are well-formed -/

/-- R90: only a command outside the table has no row, for the handler numbers end at 20. -/
theorem handlerOf_eq_zero_of_noRow {m : BitVec 8} (h : ∀ k, 1 ≤ k → k ≤ 20 → (handlerOf m).toNat ≠ k) :
    handlerOf m = 0 := by
  have hle := handlerOf_le m
  by_contra h0
  have hpos : (handlerOf m).toNat ≠ 0 := fun h => h0 (BitVec.eq_of_toNat_eq h)
  exact h _ (Nat.pos_of_ne_zero hpos) hle rfl

/-- R87, R88: the instruction of a frame in canonical form is well-formed. -/
theorem instrOfFrame_wf (cfg : Config) (c : PipeId) {f : Frame} (hf : f.canonical = true) :
    (instrOfFrame cfg c f).wf cfg = true := by
  unfold instrOfFrame
  split
  case h_19 hm =>
    split
    case h_1 | h_2 => rfl
    case h_3 hl =>
      have heta : cds8Frame f.header f.payload = f := cds8Frame_eta (cmd_of_handlerOf_stream hm) hl
      by_cases ht : triggerMatch cfg f = true
      · rw [if_pos ht, Instr.wf, heta, ht]
      · rw [if_neg ht, Instr.wf, heta, Bool.eq_false_iff.2 ht, Bool.not_false]
    case h_4 h6 h7 h8 =>
      have hl : f.len.val ≤ 5 := by
        have hlt := f.len.isLt
        have h678 : f.len.val ≠ 6 ∧ f.len.val ≠ 7 ∧ f.len.val ≠ 8 := ⟨h6, h7, h8⟩
        omega
      exact Bool.and_eq_true_iff.2 ⟨hf, decide_eq_true hl⟩
  case h_21 =>
    have h0 : handlerOf f.cmd = 0 := handlerOf_eq_zero_of_noRow fun k h1 h20 => by interval_cases k <;> assumption
    exact Bool.and_eq_true_iff.2 ⟨hf, beq_iff_eq.2 h0⟩
  all_goals exact hf

theorem decodeWire_wf (cfg : Config) (c : PipeId) (w : WireWord) : (decodeWire cfg c w).wf cfg = true := by
  by_cases h : (wireByte w 4).toNat ≤ 8
  · rw [decodeWire_ok cfg c h]
    exact instrOfFrame_wf cfg c (wireFrame_canonical h)
  · rw [decodeWire_illen cfg c (Nat.not_le.1 h)]
    exact decide_eq_true (Nat.not_le.1 h)

theorem decodeRxu_wf {cfg : Config} {c : PipeId} {kind : BitVec 3} {n : BitVec 16} {w : WireWord} {i : Instr}
    (h : decodeRxu c kind n w = .ok i) : i.wf cfg = true ∨ ∃ c, i = .rxBadsize c 13#16 := by
  unfold decodeRxu at h
  split at h <;> cases h
  case h_2 =>
    by_cases hn : n = 13#16
    · exact .inr ⟨c, by rw [hn]⟩
    · exact .inl (bne_iff_ne.2 hn)
  all_goals exact .inl rfl

theorem decodeLk_wf {cfg : Config} {hi : BitVec 24} {id : Nat} {i : Instr} (hid : id < 2 ^ cfg.objIdBits)
    (h : decodeLk hi id = .ok i) : i.wf cfg = true := by
  unfold decodeLk at h
  split at h
  · split at h <;> cases h
    case h_1 => rfl
    all_goals exact decide_eq_true hid
  · cases h

theorem decodeCl_wf {cfg : Config} {hi : BitVec 24} {id : Nat} {i : Instr} (hid : id < 2 ^ cfg.objIdBits)
    (h : decodeCl hi id = .ok i) : i.wf cfg = true := by
  unfold decodeCl at h
  split_ifs at h <;> cases h <;> exact decide_eq_true hid

theorem decodeCtl_wf {cfg : Config} {t : BitVec 24} {i : Instr} (h : decodeCtl t = .ok i) : i.wf cfg = true := by
  unfold decodeCtl at h
  split at h
  · split at h <;> cases h <;> rfl
  · cases h

/-- Settles O2, port by port. -/
theorem decodedWellFormed : Obligations.DecodedWellFormed := by
  intro cfg w i h
  have hid (n : Nat) : lowBits cfg n < 2 ^ cfg.objIdBits := Nat.mod_lt _ (Nat.two_pow_pos _)
  cases w with
  | rxu c kind n w => exact decodeRxu_wf h
  | frame c w =>
    cases h
    exact .inl (decodeWire_wf cfg c w)
  | lk w => exact .inl (decodeLk_wf (hid w) h)
  | cl w => exact .inl (decodeCl_wf (hid w) h)
  | ctl t => exact .inl (decodeCtl_wf h)
  | inf | tx =>
    cases h
    exact .inl rfl

end Sys2Proof
end

section
/-! SUPPORT. R100, R270: what is refused. An instruction either is refused, and then changes nothing, or emits no
`EV_BAD_REQUEST`: `Judged` says both of one outcome, and `exec_judged` says it of every instruction. -/

namespace Sys2Proof

/-- R80: the port an instruction stands at. -/
def Instr.portOf : Instr → Port
  | .isinuse .. | .reserve .. | .lock .. | .release .. => .lk
  | .canSetOrient .. | .setOrient .. => .cl
  | .reset | .pipeStart .. | .pipeStop .. | .cdsAck .. => .ctl
  | .inflDone .. => .inf
  | .encode .. => .tx
  | _ => .rxu

end Sys2Proof

namespace Sys2Proof.Machine

open Host (Outcome)

/-! ## Events of a response -/

@[simp] theorem State.respondLock_events (s : State) (ok : Bool) : (s.respondLock ok).out.events = s.out.events := rfl
@[simp] theorem State.respondCluster_events (s : State) (ok : Bool) :
    (s.respondCluster ok).out.events = s.out.events := rfl

/-! ## Verdicts -/

/-- R100, R219: the operands of an instruction name something that is absent, or an answer nobody waits for. -/
def RefusedIn (s : State) : Instr → Prop
  | .isinuse item => s.hasItem item = false
  | .reserve item o | .lock item o | .release item o => s.hasItem item = false ∨ o.illFormed = true
  | .canSetOrient k _ loco | .setOrient k _ loco => s.clusterRequestOk k loco = false
  | .inflDone c _ _ => s.hasPipe c = false ∨ (s.pipe c.toNat).inflState ≠ .inflPending
  | .encode c _ len _ => 8 < len.toNat ∨ s.hasPipe c = false
  | i => i.pipeOf.all s.hasPipe = false

/-- The outcome reports no refusal. -/
def Unrefused (r : Outcome State Fault Refusal) : Prop := ∀ t p, r = .next t → .badRequest p ∉ t.out.events

/-- The outcome is the refusal of a word of port `p` where `bad` holds, and reports none where it does not. -/
structure Judged (s : State) (p : Port) (bad : Prop) (r : Outcome State Fault Refusal) : Prop where
  refused : bad → r = .next (s.begin.badRequest p)
  unrefused : ¬bad → Unrefused r

theorem unrefused_next {t : State} (h : ∀ p, .badRequest p ∉ t.out.events) : Unrefused (.next t) := fun u p hu => by
  cases hu
  exact h p

/-- R100: a request with one test on its operands. -/
theorem judged_ite {s : State} {p : Port} {ok : Bool} {r : Outcome State Fault Refusal} (hr : Unrefused r) :
    Judged s p (ok = false) (if ok then r else .next (s.begin.badRequest p)) := by
  cases ok
  · exact ⟨fun _ => rfl, fun h => absurd rfl h⟩
  · exact ⟨nofun, fun _ => hr⟩

/-! ## Stream operations refuse nothing -/

theorem detectCompressed_noRefusal {c : PipeId} {p : Pipe} {e : PipeEffect} (h : detectCompressed c p = .ok e)
    (q : Port) : .badRequest q ∉ e.events := by
  rcases detectCompressed_ok h with ⟨rfl, -⟩ | ⟨-, -, -, rfl⟩ | ⟨-, -, _, _, _, _, -, rfl⟩ <;>
    simp [storedStream]

theorem dataFrame_noRefusal {c : PipeId} {hash : BitVec 16} {data : BitVec 64} {p : Pipe} {e : PipeEffect}
    (h : dataFrame c hash data p = .ok e) (q : Port) : .badRequest q ∉ e.events := by
  rcases dataFrame_ok h with ⟨-, rfl⟩ | ⟨-, -, rfl⟩ | ⟨-, -, -, ha⟩
  · simp
  · simp
  · rcases appendData_ok ha with ⟨-, rfl⟩ | ⟨-, r, hr, rfl⟩
    · simp
    · obtain ⟨d, -, ⟨-, hd⟩ | ⟨-, rfl⟩⟩ := complete_ok hr
      · simpa using detectCompressed_noRefusal hd q
      · simp [crcMismatch, PipeEffect.plain]

theorem StreamMove.noRefusal {cfg : Config} {c : PipeId} {p : Pipe} {e : PipeEffect} (h : StreamMove cfg c p e)
    (q : Port) : .badRequest q ∉ e.events := by
  cases h with
  | announce hash total crc flag =>
    rcases announce_cases cfg c hash total crc flag p with ⟨-, he⟩ | ⟨-, he⟩ <;> simp [he]
  | trigger name => simp [Machine.trigger, PipeEffect.plain]
  | data h => exact dataFrame_noRefusal h q
  | ignore => simp [ignoreFrame, PipeEffect.plain]

/-! ## Receive instructions -/

section
variable {s : State} {c : PipeId}

theorem routed_unrefused (n : BitVec 5) (f : Frame) : Unrefused (.next (s.begin.routed c n f)) :=
  unrefused_next fun p => by simp

theorem emit_unrefused {e : Event} (he : ∀ p, e ≠ .badRequest p) : Unrefused (.next (s.begin.emit e)) :=
  unrefused_next fun p => by simpa using (he p).symm

theorem finishPipe_unrefused {n : BitVec 5} {f : Frame} {cfg : Config} {p : Pipe} {r : Except Fault PipeEffect}
    (hr : ∀ e, r = .ok e → StreamMove cfg c p e) : Unrefused ((s.begin.routed c n f).finishPipe c r) := by
  intro t q h
  obtain ⟨e, he, rfl⟩ := State.finishPipe_next h
  simpa using (hr e he).noRefusal q

theorem receiveFrame_unrefused (w : WireWord) : Unrefused (receiveFrame c w s.begin) := by
  unfold receiveFrame
  split
  · exact emit_unrefused nofun
  · rename_i f _
    rcases dispatch_cases c f s.begin with ⟨-, hd⟩ | ⟨-, hd⟩ | ⟨-, -, hd⟩ <;> rw [hd]
    · exact emit_unrefused nofun
    · exact finishPipe_unrefused fun e => cdsStep_streamMove
    · exact routed_unrefused _ _

/-- R111: a receive instruction is refused only where its pipeline does not exist. -/
theorem rxGate_judged {k : State → Outcome State Fault Refusal} (hk : Unrefused (k s.begin)) :
    Judged s .rxu (s.hasPipe c = false) (rxGate c s k) := by
  rcases rxGate_cases c s k with ⟨hc, -, he⟩ | ⟨hc, -, he⟩ | ⟨hc, he⟩ <;> rw [he, hc]
  · exact ⟨nofun, fun _ => hk⟩
  · exact ⟨nofun, fun _ => unrefused_next fun p => by simp⟩
  · exact ⟨fun _ => rfl, fun h => absurd rfl h⟩

theorem streamFrame_judged {f : Frame} {op : Config → Pipe → Except Fault PipeEffect}
    (hop : ∀ e, op s.cfg (s.pipe c.toNat) = .ok e → StreamMove s.cfg c (s.pipe c.toNat) e) :
    Judged s .rxu (s.hasPipe c = false) (streamFrame c f op s) :=
  rxGate_judged (finishPipe_unrefused hop)

/-! ## Requests -/

theorem controlPipe_judged {f : Pipe → PipeEffect} (hf : ∀ p, .badRequest p ∉ (f (s.pipe c.toNat)).events) :
    Judged s .ctl (s.hasPipe c = false) (controlPipe c f s) :=
  judged_ite (unrefused_next fun p => by simpa using hf p)

theorem ackPipe_noRefusal (p : Pipe) (q : Port) : .badRequest q ∉ (ackPipe c p).events := by
  rcases ackPipe_cases c p with ⟨-, -, he⟩ | ⟨-, he⟩ <;> simp [he]

theorem inflateAnswer_noRefusal (ok : Bool) (outLen : BitVec 32) (p : Pipe) (q : Port) :
    .badRequest q ∉ (inflateAnswer c ok outLen p).events := by
  rcases inflateAnswer_cases c ok outLen p with ⟨-, -, he⟩ | ⟨-, he⟩ <;> simp [he]

theorem execInflDone_judged (ok : Bool) (outLen : BitVec 32) :
    Judged s .inf (s.hasPipe c = false ∨ (s.pipe c.toNat).inflState ≠ .inflPending) (execInflDone c ok outLen s) := by
  have hbad : (s.hasPipe c && (s.pipe c.toNat).inflState == .inflPending) = false ↔
      s.hasPipe c = false ∨ (s.pipe c.toNat).inflState ≠ .inflPending := by
    rw [Bool.and_eq_false_iff, beq_eq_false_iff_ne]
  rw [← hbad]
  exact judged_ite (unrefused_next fun q => by simpa using inflateAnswer_noRefusal ok outLen _ q)

theorem execEncode_judged (id : BitVec 29) (len : BitVec 4) (payload : BitVec 64) :
    Judged s .tx (8 < len.toNat ∨ s.hasPipe c = false) (execEncode c id len payload s) := by
  unfold execEncode
  split
  · rename_i hlen
    split
    · rename_i hc
      exact ⟨fun h => absurd h (by simp [hlen, hc]), fun _ => unrefused_next fun p => by simp⟩
    · rename_i hc
      exact ⟨fun _ => rfl, fun h => absurd (.inr (by simpa using hc)) h⟩
  · rename_i hlen
    exact ⟨fun _ => rfl, fun h => absurd (.inl (Nat.not_le.1 hlen)) h⟩

end

section
variable {s : State} {item k : BitVec 16} {o : Bool} {owner loco : ObjectId}

theorem execIsinuse_judged : Judged s .lk (s.hasItem item = false) (execIsinuse item s) :=
  judged_ite (unrefused_next fun _ => nofun)

theorem lockOperation_judged (op : LockOp) (f : ObjectId → LockEntry → Option LockEntry) :
    Judged s .lk (s.hasItem item = false ∨ owner.illFormed = true) (.next (lockOperation op f item owner s)) := by
  rcases lockOperation_cases op f item owner s with ⟨hbad, he⟩ | ⟨hitem, ho, hrun⟩
  · exact ⟨fun _ => congrArg _ he, fun h => absurd hbad h⟩
  · refine ⟨fun h => absurd h (by simp [hitem, ho]), fun _ => unrefused_next fun p => ?_⟩
    rcases hrun with ⟨-, he⟩ | ⟨-, he⟩ | ⟨new, -, -, he⟩ <;> simp [he]

theorem execCanSetOrient_judged : Judged s .cl (s.clusterRequestOk k loco = false) (execCanSetOrient k o loco s) :=
  judged_ite (unrefused_next fun _ => nofun)

theorem execSetOrient_judged : Judged s .cl (s.clusterRequestOk k loco = false) (execSetOrient k o loco s) := by
  refine judged_ite ?_
  split_ifs
  · exact unrefused_next fun _ => nofun
  · exact unrefused_next fun _ => by simp
  · exact unrefused_next fun _ => by simp

end

/-- R100: the verdict on every instruction. -/
theorem exec_judged (i : Instr) (s : State) : Judged s i.portOf (RefusedIn s i) (exec i s) := by
  unfold exec
  cases i with
  | system c | discovery c | bind c | verify c | speed c | direction c | function c | readConfig c | writeConfig c
  | accSwitch c | s88A c | s88B c | ping c | bootloader c | cfgStatus c | vendor1E c | vendor1F c | vendor20 c
  | vendor22 c => exact rxGate_judged (k := fun s => .next (s.routed c _ _)) (routed_unrefused _ _)
  | cdsAnn6 | cdsAnn7 => exact streamFrame_judged fun e he => by cases he; exact .announce ..
  | cdsTrig => exact streamFrame_judged fun e he => by cases he; exact .trigger _
  | cdsShort => exact streamFrame_judged fun e he => by cases he; exact .ignore _
  | cdsData => exact streamFrame_judged fun e he => .data he
  | rxFrame c w => exact rxGate_judged (receiveFrame_unrefused w)
  | illen | unknown | rxBadsize => exact rxGate_judged (emit_unrefused nofun)
  | rxTimeout => exact rxGate_judged (unrefused_next fun p => by simp)
  | rxClosed | rxError => exact rxGate_judged (unrefused_next fun p => by simp [connectionDead])
  | isinuse => exact execIsinuse_judged
  | reserve | lock | release => exact lockOperation_judged ..
  | canSetOrient => exact execCanSetOrient_judged
  | setOrient => exact execSetOrient_judged
  | reset => exact ⟨nofun, fun _ => unrefused_next fun p => nofun⟩
  | pipeStart | pipeStop => exact controlPipe_judged fun p => by simp [startPipe, stopPipe]
  | cdsAck => exact controlPipe_judged (ackPipe_noRefusal _)
  | inflDone c ok outLen => exact execInflDone_judged ok outLen
  | encode c id len payload => exact execEncode_judged id len payload

end Sys2Proof.Machine
end

section
/-! SUPPORT. R100: the words that are refused are the malformed ones and the stray answers, port by port. -/

namespace Sys2Proof.Machine

open Host (Outcome)

/-! ## The fields of a word -/

theorem State.hasPipe_eq_false_iff (s : State) (c : PipeId) : s.hasPipe c = false ↔ s.cfg.nConn ≤ c.toNat := by
  simp [State.hasPipe]

theorem State.hasItem_eq_false_iff (s : State) (item : BitVec 16) :
    s.hasItem item = false ↔ s.cfg.hasLock = false ∨ s.cfg.nItems ≤ item.toNat := by
  cases h : s.cfg.hasLock <;> simp [State.hasItem, h]

theorem State.clusterRequestOk_eq_false_iff (s : State) (k : BitVec 16) (loco : ObjectId) :
    s.clusterRequestOk k loco = false ↔
      s.cfg.hasCluster = false ∨ s.cfg.nClusters ≤ k.toNat ∨ loco.illFormed = true := by
  cases h : s.cfg.hasCluster <;> cases hl : loco.illFormed <;> simp [State.clusterRequestOk, h, hl]

theorem ofCode_eq_none_iff (t : BitVec 4) : ObjType.ofCode t = .none ↔ t.toNat = 0 := by
  revert t
  decide

/-- R40: an object id read from a word is ill-formed iff exactly one of its fields is 0. -/
theorem illFormed_ofCode_iff (t : BitVec 4) (id : Nat) :
    (ObjectId.mk (ObjType.ofCode t) id).illFormed = true ↔ ¬(t.toNat = 0 ↔ id = 0) := by
  by_cases ht : t.toNat = 0 <;> by_cases hid : id = 0 <;>
    simp [ObjectId.illFormed, (ofCode_eq_none_iff t), ht, hid]

/-- R93, R95: a field of an `lk` or `cl` word as a number. -/
theorem highBits_field (cfg : Config) (w : Nat) {lo len : Nat} (h : lo + len ≤ 24) :
    ((highBits cfg w).extractLsb' lo len).toNat = w / 2 ^ (cfg.objIdBits + lo) % 2 ^ len := by
  rw [extractLsb'_toNat_div, highBits, BitVec.toNat_ofNat]
  apply Nat.eq_of_testBit_eq
  intro i
  by_cases hi : i < len
  · have h24 : i + lo < 24 := by omega
    have hadd : i + lo + cfg.objIdBits = i + (cfg.objIdBits + lo) := by omega
    simp only [Nat.testBit_mod_two_pow, Nat.testBit_div_two_pow, hi, h24, hadd, decide_true, Bool.true_and]
  · simp [Nat.testBit_mod_two_pow, hi]

/-! ## Receive words -/

theorem portOf_of_rxPipe {i : Instr} {c : PipeId} (h : i.rxPipe = some c) : i.portOf = .rxu := by
  cases i with
  | isinuse | reserve | lock | release | canSetOrient | setOrient | reset | pipeStart | pipeStop | cdsAck | inflDone
  | encode => cases h
  | _ => rfl

theorem refusedIn_iff_of_rxPipe {s : State} {i : Instr} {c : PipeId} (h : i.rxPipe = some c) :
    RefusedIn s i ↔ s.cfg.nConn ≤ c.toNat := by
  rw [← State.hasPipe_eq_false_iff]
  cases i with
  | isinuse | reserve | lock | release | canSetOrient | setOrient | reset | pipeStart | pipeStop | cdsAck | inflDone
  | encode => cases h
  | _ => cases h; rfl

theorem instrOfFrame_rxPipe (cfg : Config) (c : PipeId) (f : Frame) : (instrOfFrame cfg c f).rxPipe = some c := by
  unfold instrOfFrame
  split
  case h_19 =>
    split
    case h_3 => split <;> rfl
    all_goals rfl
  all_goals rfl

theorem decodeWire_rxPipe (cfg : Config) (c : PipeId) (w : WireWord) : (decodeWire cfg c w).rxPipe = some c := by
  unfold decodeWire
  split
  · rfl
  · exact instrOfFrame_rxPipe cfg c _

theorem decodeRxu_ok {c : PipeId} {kind : BitVec 3} {n : BitVec 16} {w : WireWord} {i : Instr}
    (h : decodeRxu c kind n w = .ok i) : kind.toNat < 5 ∧ i.rxPipe = some c := by
  unfold decodeRxu at h
  split at h <;> cases h
  all_goals exact ⟨by omega, rfl⟩

theorem decodeRxu_error {c : PipeId} {kind : BitVec 3} {n : BitVec 16} {w : WireWord} {r : Reject}
    (h : decodeRxu c kind n w = .error r) : 5 ≤ kind.toNat ∧ r = .rxuKind := by
  unfold decodeRxu at h
  split at h <;> cases h
  case h_6 h0 h1 h2 h3 h4 =>
    have hk : kind.toNat ≠ 0 ∧ kind.toNat ≠ 1 ∧ kind.toNat ≠ 2 ∧ kind.toNat ≠ 3 ∧ kind.toNat ≠ 4 :=
      ⟨h0, h1, h2, h3, h4⟩
    exact ⟨by omega, rfl⟩

/-! ## The verdict on a word -/

/-- R100: a decoder's answer for a word of port `p` agrees with the word being `bad`: an instruction of that port that is
refused iff `bad` holds, or a rejection, and then `bad` holds. -/
def Reads (s : State) (p : Port) (bad : Prop) : Except Reject Instr → Prop
  | .ok i => i.portOf = p ∧ (RefusedIn s i ↔ bad)
  | .error r => r.port = p ∧ bad

theorem decodeRxu_reads (s : State) (c : PipeId) (kind : BitVec 3) (n : BitVec 16) (w : WireWord) :
    Reads s .rxu (5 ≤ kind.toNat ∨ s.cfg.nConn ≤ c.toNat) (decodeRxu c kind n w) := by
  cases h : decodeRxu c kind n w with
  | ok i =>
    obtain ⟨hk, hi⟩ := decodeRxu_ok h
    refine ⟨portOf_of_rxPipe hi, (refusedIn_iff_of_rxPipe hi).trans ⟨.inr, fun hbad => hbad.resolve_left ?_⟩⟩
    exact Nat.not_le.2 hk
  | error r =>
    obtain ⟨hk, rfl⟩ := decodeRxu_error h
    exact ⟨rfl, .inl hk⟩

/-- R93, R100: a malformed lock-port word, by the fields the decoder reads. -/
theorem malformed_lk_iff (s : State) (w : Nat) : Malformed s.cfg (.lk w) ↔
    ((highBits s.cfg w).extractLsb' 20 2).toNat ≠ 0 ∨ s.hasItem ((highBits s.cfg w).extractLsb' 4 16) = false ∨
      (((highBits s.cfg w).extractLsb' 22 2).toNat ≠ 0 ∧
        (ObjectId.mk (.ofCode ((highBits s.cfg w).extractLsb' 0 4)) (lowBits s.cfg w)).illFormed = true) := by
  rw [State.hasItem_eq_false_iff, illFormed_ofCode_iff, highBits_field _ _ (by decide), highBits_field _ _ (by decide),
    highBits_field _ _ (by decide), highBits_field _ _ (by decide)]
  simp only [Malformed, lowBits, Nat.add_zero, Nat.reducePow, or_assoc]
  exact or_left_comm

theorem malformed_cl_iff (s : State) (w : Nat) : Malformed s.cfg (.cl w) ↔
    ((highBits s.cfg w).extractLsb' 20 2).toNat ≠ 0 ∨
      s.clusterRequestOk ((highBits s.cfg w).extractLsb' 4 16)
        ⟨.ofCode ((highBits s.cfg w).extractLsb' 0 4), lowBits s.cfg w⟩ = false := by
  rw [State.clusterRequestOk_eq_false_iff, illFormed_ofCode_iff, highBits_field _ _ (by decide),
    highBits_field _ _ (by decide), highBits_field _ _ (by decide)]
  simp only [Malformed, lowBits, Nat.add_zero, Nat.reducePow]
  exact or_left_comm

theorem decodeLk_reads (s : State) (w : Nat) :
    Reads s .lk (Malformed s.cfg (.lk w)) (decodeLk (highBits s.cfg w) (lowBits s.cfg w)) := by
  rw [malformed_lk_iff]
  unfold decodeLk
  generalize (highBits s.cfg w).extractLsb' 20 2 = reserved, (highBits s.cfg w).extractLsb' 22 2 = op
  by_cases hr : reserved = 0#2
  · rw [if_pos hr, hr]
    split
    case h_1 hop => exact ⟨rfl, by simp [RefusedIn, hop]⟩
    case h_4 h0 h1 h2 =>
      have hop : op.toNat ≠ 0 := h0
      exact ⟨rfl, by simp [RefusedIn, hop]⟩
    all_goals exact ⟨rfl, by simp [RefusedIn, ‹op.toNat = _›]⟩
  · rw [if_neg hr]
    exact ⟨rfl, .inl fun h => hr (BitVec.eq_of_toNat_eq h)⟩

theorem decodeCl_reads (s : State) (w : Nat) :
    Reads s .cl (Malformed s.cfg (.cl w)) (decodeCl (highBits s.cfg w) (lowBits s.cfg w)) := by
  rw [malformed_cl_iff]
  unfold decodeCl
  split
  · rename_i hr
    split <;> exact ⟨rfl, by simp [RefusedIn, hr]⟩
  · rename_i hr
    exact ⟨rfl, .inl fun h => hr (BitVec.eq_of_toNat_eq h)⟩

theorem decodeCtl_reads (s : State) (t : BitVec 24) : Reads s .ctl (Malformed s.cfg (.ctl t)) (decodeCtl t) := by
  have hvalue (k : BitVec 4) : t.extractLsb' 20 4 = k ↔ (t.extractLsb' 20 4).toNat = k.toNat := BitVec.toNat_inj.symm
  simp only [Malformed, ne_eq, hvalue]
  unfold decodeCtl
  generalize t.extractLsb' 16 4 = reserved, t.extractLsb' 20 4 = op
  by_cases hr : reserved = 0#4
  · rw [if_pos hr, hr]
    split
    case h_5 h1 h2 h3 h4 =>
      have hne : op.toNat ≠ 1 ∧ op.toNat ≠ 2 ∧ op.toNat ≠ 3 ∧ op.toNat ≠ 4 := ⟨h1, h2, h3, h4⟩
      have hop : op.toNat = 0 ∨ 5 ≤ op.toNat := by omega
      exact ⟨rfl, .inr (hop.imp_right .inl)⟩
    all_goals
      refine ⟨rfl, ?_⟩
      simp [RefusedIn, Instr.pipeOf, Instr.rxPipe, State.hasPipe_eq_false_iff, ‹op.toNat = _›]
  · rw [if_neg hr]
    exact ⟨rfl, .inl hr⟩

/-- R100, R219: the words refused are the malformed ones and the stray answers. -/
theorem decode_reads (s : State) (w : PortWord) :
    Reads s w.port (Malformed s.cfg w ∨ StrayAnswer s w) (decode s.cfg w) := by
  have noStray {p : Prop} (h : ¬StrayAnswer s w) : p ∨ StrayAnswer s w ↔ p := or_iff_left h
  cases w with
  | rxu c kind n w =>
    rw [noStray id]
    exact decodeRxu_reads s c kind n w
  | frame c w =>
    have hi := decodeWire_rxPipe s.cfg c w
    rw [noStray id]
    exact ⟨portOf_of_rxPipe hi, refusedIn_iff_of_rxPipe hi⟩
  | lk w =>
    rw [noStray id]
    exact decodeLk_reads s w
  | cl w =>
    rw [noStray id]
    exact decodeCl_reads s w
  | ctl t =>
    rw [noStray id]
    exact decodeCtl_reads s t
  | inf i => exact ⟨rfl, by simp [RefusedIn, Malformed, StrayAnswer, State.hasPipe_eq_false_iff]⟩
  | tx c id len payload => exact ⟨rfl, by simp [RefusedIn, Malformed, StrayAnswer, State.hasPipe_eq_false_iff]⟩

/-- The verdict on the word a step takes. -/
theorem step_judged {s : State} {before after : List PortWord} {w : PortWord} (hp : s.pending = before ++ w :: after)
    (hb : ∀ x ∈ before, NotEnabled s x) (hw : ¬NotEnabled s w) :
    Judged { s with pending := before ++ after } w.port (Malformed s.cfg w ∨ StrayAnswer s w) (step s) := by
  have hreads := decode_reads s w
  simp only [step, takeWord_eq hp hb hw]
  cases hd : decode s.cfg w with
  | ok i =>
    rw [hd] at hreads
    obtain ⟨hport, hbad⟩ := hreads
    rw [← hport, ← hbad]
    exact exec_judged i _
  | error r =>
    rw [hd] at hreads
    obtain ⟨hport, hbad⟩ := hreads
    rw [← hport]
    exact ⟨fun _ => rfl, fun h => absurd hbad h⟩

/-- Settles O14: the two halves of the verdict on the taken word. -/
theorem refusedExactly : Obligations.RefusedExactly := by
  intro s before after w hp hb hw
  have hj := step_judged hp hb hw
  refine ⟨fun hbad => ?_, fun t p ht hmem => ?_⟩
  · rw [hj.refused hbad, badRequest_eq]
  · by_contra hbad
    exact hj.unrefused hbad t p ht hmem

end Sys2Proof.Machine
end

section
/-! SUPPORT. 40_frame_codec.md: `decode` and `encode` on the 13 bytes of the wire frame, byte by byte, and that they undo
each other (R114 to R119). -/

namespace Sys2Proof

open Machine

/-! ## The bytes of a word -/

/-- R11, R81: the first four bytes are the big-endian word of flags and identifier. -/
theorem be32_wireByte (w : WireWord) :
    be32 (wireByte w 0) (wireByte w 1) (wireByte w 2) (wireByte w 3) = w.extractLsb' 72 32 := by
  unfold be32 wireByte
  rw [extractLsb'_join w 88 8 8, extractLsb'_join w 80 16 8, extractLsb'_join w 72 24 8]

/-- R81: a word is its flags, its identifier, its length byte and its eight payload bytes. -/
theorem wire_ext {w v : WireWord} (hflags : w.extractLsb' 101 3 = v.extractLsb' 101 3)
    (hid : w.extractLsb' 72 29 = v.extractLsb' 72 29) (hlen : wireByte w 4 = wireByte v 4)
    (hbytes : ∀ i < 8, wireByte w (5 + i) = wireByte v (5 + i)) : w = v := by
  have hpayload : w.extractLsb' 0 64 = v.extractLsb' 0 64 :=
    payload_ext fun i hi => by rw [payloadByte_wire w i hi, payloadByte_wire v i hi, hbytes i hi]
  have hparts (x : WireWord) :
      x.extractLsb' 101 3 ++ x.extractLsb' 72 29 ++ wireByte x 4 ++ x.extractLsb' 0 64 = x := by
    unfold wireByte
    rw [extractLsb'_join x 72 3 29, extractLsb'_join x 64 32 8, extractLsb'_join x 0 40 64, extractLsb'_whole]
  rw [← hparts w, hflags, hid, hlen, hpayload, hparts v]

/-! ## The bytes `encode` sends -/

theorem encodeFrame_flags (flags : BitVec 3) (f : Frame) : (encodeFrame flags f).extractLsb' 101 3 = flags := by
  unfold encodeFrame
  rw [extractLsb'_append_high _ _ 101 3 (by decide), extractLsb'_append_high _ _ _ 3 (by decide),
    extractLsb'_append_high _ _ _ 3 (by decide), extractLsb'_whole]

/-- R116: the first four bytes sent are `TX_ID_FLAGS` over the identifier. -/
theorem encodeFrame_idWord (flags : BitVec 3) (f : Frame) :
    be32 (wireByte (encodeFrame flags f) 0) (wireByte (encodeFrame flags f) 1) (wireByte (encodeFrame flags f) 2)
      (wireByte (encodeFrame flags f) 3) = flags ++ f.id := by
  rw [be32_wireByte, ← extractLsb'_join _ 72 3 29, encodeFrame_flags, encodeFrame_id]

/-- R116: the bytes sent after the length byte are the payload, with zeros from the length on. -/
theorem encodeFrame_payloadByte (flags : BitVec 3) (f : Frame) {i : Nat} (hi : i < 8) :
    wireByte (encodeFrame flags f) (5 + i) = if i < f.len.val then payloadByte f.payload i else 0#8 := by
  rw [← payloadByte_wire _ i hi, encodeFrame_payload,
    payloadByte_keepBytes _ (Nat.le_of_lt_succ f.len.isLt) _ i hi]

/-! ## Round trips -/

/-- R117: a frame whose padding bytes are zero is in canonical form. -/
theorem canonical_of_padding {f : Frame} (h : ∀ i < 8, f.len.val ≤ i → payloadByte f.payload i = 0#8) :
    f.canonical = true := by
  suffices hkeep : keepBytes f.len.val f.payload = f.payload from beq_iff_eq.2 hkeep
  refine payload_ext fun i hi => ?_
  rw [payloadByte_keepBytes _ (Nat.le_of_lt_succ f.len.isLt) _ i hi]
  by_cases hlt : i < f.len.val
  · exact if_pos hlt
  · exact (if_neg hlt).trans (h i hi (Nat.not_lt.1 hlt)).symm

/-- Settles O3: zero padding is the canonical form, and a canonical frame survives the round trip. -/
theorem frameRoundTrip : Obligations.FrameRoundTrip :=
  fun flags _ hf => decodeFrame_encodeFrame (canonical_of_padding hf) flags

/-- R85, R118: encoding the frame of a word gives the word's payload bytes below the length and zeros from it on. -/
theorem encodeFrame_wireFrame_byte (flags : BitVec 3) {w : WireWord} (h : (wireByte w 4).toNat ≤ 8) {i : Nat}
    (hi : i < 8) : wireByte (encodeFrame flags (wireFrame w h)) (5 + i) = keptByte w i := by
  rw [← payloadByte_wire _ i hi, encodeFrame_payload, keepBytes_of_canonical (wireFrame_canonical h),
    payloadByte_wireFrame h hi]

/-- R118: a word with zero padding keeps all its payload bytes. -/
theorem keptByte_of_padding {w : WireWord} (hpad : ∀ i < 8, (wireByte w 4).toNat ≤ i → wireByte w (5 + i) = 0#8)
    {i : Nat} (hi : i < 8) : keptByte w i = wireByte w (5 + i) := by
  by_cases hlt : i < (wireByte w 4).toNat
  · exact keptByte_of_lt hlt
  · exact (if_neg hlt).trans (hpad i hi (Nat.not_lt.1 hlt)).symm

/-- Settles O4: the word of the decoded frame agrees with the 13 bytes in every field that decoding reads, and a valid word
in the others too. -/
theorem wireRoundTrip : Obligations.WireRoundTrip := by
  intro flags w h
  have hflags := encodeFrame_flags flags (wireFrame w h)
  have hid : (encodeFrame flags (wireFrame w h)).extractLsb' 72 29 = w.extractLsb' 72 29 := encodeFrame_id ..
  have hlen : wireByte (encodeFrame flags (wireFrame w h)) 4 = wireByte w 4 :=
    BitVec.eq_of_toNat_eq (encodeFrame_len_toNat ..)
  refine ⟨wireFrame w h, decodeFrame_ok h, hflags, hid, hlen, fun i hi => encodeFrame_wireFrame_byte flags h hi, ?_⟩
  intro hvalid hpad
  refine wire_ext (hflags.trans hvalid.symm) hid hlen fun i hi => ?_
  rw [encodeFrame_wireFrame_byte flags h hi, keptByte_of_padding hpad hi]

/-- Settles O5: `wireFrame` is the frame of a legal length byte, and its parts are the bytes'. -/
theorem decodeBytes : Obligations.DecodeBytes := by
  refine fun w => ⟨decodeFrame_error, fun h => ⟨wireFrame w h, decodeFrame_ok h, ?_, rfl, fun i hi =>
    payloadByte_wireFrame h hi⟩⟩
  rw [be32_wireByte]
  exact (extractLsb'_field w 72 32 0 29 (by decide)).symm

end Sys2Proof
end

section
/-! SUPPORT. R88, R89, R115: what `RX.FRAME` does with 13 bytes is what the instruction they decode to does. Behind the
enable condition both are `dispatch` of the decoded frame; an instruction keeps of its frame the operands only, and the
frame is the one they make up, because a decoded frame is in canonical form (R117). -/

namespace Sys2Proof

/-! ## Announce frames by their operands -/

/-- R87: a frame of the config-data stream by its header, length and payload. -/
theorem mkFrame_stream_eta {f : Frame} (hm : f.cmd = cfgDataCmd) {n : Fin 9} (hl : f.len = n) {d : BitVec 64}
    (hd : d = f.payload) : mkFrame cfgDataCmd f.header ⟨n, d⟩ = f := by
  subst hl hd
  rw [← hm]
  exact mkFrame_eta f

/-- R88: a 6-byte announce in canonical form is the frame of its operands. -/
theorem ann6Frame_eta {f : Frame} (hf : f.canonical = true) (hm : f.cmd = cfgDataCmd) (hl : f.len.val = 6) :
    ann6Frame f.header f.annTotal f.annCrc = f := by
  have hpayload : ann6Payload f.annTotal f.annCrc = f.payload := by
    rw [← keepBytes_of_canonical hf, hl]
    apply BitVec.eq_of_toNat_eq
    simp only [ann6Payload, Frame.annTotal, Frame.annCrc, keepBytes_toNat, toNat_append_mul, extractLsb'_toNat_div,
      BitVec.toNat_ofNat]
    have := f.payload.isLt
    omega
  exact mkFrame_stream_eta hm (Fin.ext hl) hpayload

/-- R88: a 7-byte announce in canonical form is the frame of its operands. -/
theorem ann7Frame_eta {f : Frame} (hf : f.canonical = true) (hm : f.cmd = cfgDataCmd) (hl : f.len.val = 7) :
    ann7Frame f.header f.annTotal f.annCrc f.annFlag = f := by
  have hpayload : ann7Payload f.annTotal f.annCrc f.annFlag = f.payload := by
    rw [← keepBytes_of_canonical hf, hl]
    apply BitVec.eq_of_toNat_eq
    simp only [ann7Payload, Frame.annTotal, Frame.annCrc, Frame.annFlag, payloadByte, keepBytes_toNat, toNat_append_mul,
      extractLsb'_toNat_div, BitVec.toNat_ofNat]
    have := f.payload.isLt
    omega
  exact mkFrame_stream_eta hm (Fin.ext hl) hpayload

namespace Machine

open Host (Outcome)

/-! ## `dispatch` and `cds_step`, case by case -/

section
variable {cfg : Config} {c : PipeId} {f : Frame} {p : Pipe}

theorem dispatch_unknown (h : handlerOf f.cmd = 0) : dispatch c f = fun s => .next (s.emit (.unknownCmd c f.cmd9)) :=
  funext fun _ => if_pos h

theorem dispatch_routed (h0 : handlerOf f.cmd ≠ 0) (h19 : handlerOf f.cmd ≠ 19) :
    dispatch c f = fun s => .next (s.routed c (handlerOf f.cmd) f) :=
  funext fun _ => (if_neg h0).trans (if_neg h19)

theorem dispatch_stream (hm : f.cmd = cfgDataCmd) :
    dispatch c f = fun s => (s.routed c 19 f).finishPipe c (cdsStep s.cfg c f (s.pipe c.toNat)) := by
  funext s
  simp [dispatch, hm, cfgDataCmd, handlerOf]

theorem cdsStep_ann6 (hl : f.len.val = 6) :
    cdsStep cfg c f p = .ok (announce cfg c f.hash f.annTotal f.annCrc none p) := by
  simp [cdsStep, hl]

theorem cdsStep_ann7 (hl : f.len.val = 7) :
    cdsStep cfg c f p = .ok (announce cfg c f.hash f.annTotal f.annCrc (some f.annFlag) p) := by
  simp [cdsStep, hl]

theorem cdsStep_trig (hl : f.len.val = 8) (ht : triggerMatch cfg f = true) :
    cdsStep cfg c f p = .ok (trigger c f.payload p) := by
  simp [cdsStep, hl, ht]

theorem cdsStep_data (hl : f.len.val = 8) (ht : triggerMatch cfg f = false) :
    cdsStep cfg c f p = dataFrame c f.hash f.payload p := by
  simp [cdsStep, hl, ht]

theorem cdsStep_short (hl : f.len.val ≤ 5) : cdsStep cfg c f p = .ok (ignoreFrame c .shortLen p) := by
  unfold cdsStep
  split
  case h_4 => rfl
  all_goals omega

end

/-! ## The instruction of a frame is its `dispatch` -/

section
variable {s : State} {c : PipeId} {f : Frame}

/-- R130, R132: the instruction of a command with a handler outside the block routes its frame to that handler. -/
theorem exec_commandRow (h : Header) (b : Body) : ∀ e ∈ commandRows,
    exec (e.2 c h b) s = routeOnly c (handlerOf e.1) (mkFrame e.1 h b) s := by
  intro e he
  fin_cases he <;> rfl

theorem handlerOf_commandRow : ∀ m ∈ commandRows.map Prod.fst, handlerOf m ≠ 0 ∧ handlerOf m ≠ 19 := by decide

/-- R111: the enable condition depends on no meaning, and a meaning is run at the beginning of the step. -/
theorem rxGate_congr {k k' : State → Outcome State Fault Refusal} (h : k s.begin = k' s.begin) :
    rxGate c s k = rxGate c s k' := by
  unfold rxGate
  rw [h]

/-- R152: on the pipeline it meets, a stream instruction's operation is `cds_step` of its frame. -/
theorem streamFrame_eq_dispatch (hm : f.cmd = cfgDataCmd) {op : Config → Pipe → Except Fault PipeEffect}
    (hop : op s.cfg (s.pipe c.toNat) = cdsStep s.cfg c f (s.pipe c.toNat)) :
    streamFrame c f op s = rxGate c s (dispatch c f) := by
  refine rxGate_congr ?_
  rw [dispatch_stream hm]
  exact congrArg _ hop

/-- R88, R171: the instruction of a canonical frame of the stream, by its length. -/
theorem exec_instrOfFrame_stream (hf : f.canonical = true) (hm : f.cmd = cfgDataCmd) :
    exec (instrOfFrame s.cfg c f) s = rxGate c s (dispatch c f) := by
  have hlt := f.len.isLt
  obtain h5 | h6 | h7 | h8 : f.len.val ≤ 5 ∨ f.len.val = 6 ∨ f.len.val = 7 ∨ f.len.val = 8 := by omega
  · rw [instrOfFrame_short hm h5, exec, execCdsShort, ← hm, mkFrame_eta]
    exact streamFrame_eq_dispatch hm (cdsStep_short h5).symm
  · rw [instrOfFrame_ann6 hm h6, exec, execCdsAnn6, ann6Frame_eta hf hm h6]
    exact streamFrame_eq_dispatch hm (cdsStep_ann6 h6).symm
  · rw [instrOfFrame_ann7 hm h7, exec, execCdsAnn7, ann7Frame_eta hf hm h7]
    exact streamFrame_eq_dispatch hm (cdsStep_ann7 h7).symm
  · cases ht : triggerMatch s.cfg f with
    | true =>
      rw [instrOfFrame_trig hm h8 ht, exec, execCdsTrig, cds8Frame_eta hm h8]
      exact streamFrame_eq_dispatch hm (cdsStep_trig h8 ht).symm
    | false =>
      rw [instrOfFrame_data hm h8 ht, exec, execCdsData, cds8Frame_eta hm h8]
      exact streamFrame_eq_dispatch hm (cdsStep_data h8 ht).symm

/-- R89: the instruction of a canonical frame does what `dispatch` does with the frame. -/
theorem exec_instrOfFrame (hf : f.canonical = true) :
    exec (instrOfFrame s.cfg c f) s = rxGate c s (dispatch c f) := by
  by_cases hm : f.cmd = cfgDataCmd
  · exact exec_instrOfFrame_stream hf hm
  · by_cases hrow : f.cmd ∈ commandRows.map Prod.fst
    · obtain ⟨e, he, hcmd⟩ := List.mem_map.1 hrow
      obtain ⟨h0, h19⟩ := handlerOf_commandRow _ hrow
      rw [instrOfFrame_command e he hcmd.symm, exec_commandRow _ _ e he, hcmd, mkFrame_eta, dispatch_routed h0 h19]
      rfl
    · have h0 := handlerOf_eq_zero hm hrow
      rw [instrOfFrame_unknown h0, exec, execUnknown, mkFrame_eta, dispatch_unknown h0]

end

/-! ## The two presentations of a frame -/

/-- R115: 13 bytes with a legal length byte are dispatched. -/
theorem receiveFrame_ok (c : PipeId) {w : WireWord} (h : (wireByte w 4).toNat ≤ 8) :
    receiveFrame c w = dispatch c (wireFrame w h) := by
  funext s
  simp only [receiveFrame, decodeFrame_ok h]

/-- R115: 13 bytes with another length byte are dropped. -/
theorem receiveFrame_error (c : PipeId) {w : WireWord} (h : 8 < (wireByte w 4).toNat) :
    receiveFrame c w = fun s => .next (s.emit (.invalidLength c (wireByte w 4))) := by
  funext s
  simp only [receiveFrame, decodeFrame_error h]

/-- R115: `RX.FRAME` does what the instruction of its 13 bytes does, in every state (log 6). -/
theorem exec_decodeWire (s : State) (c : PipeId) (w : WireWord) :
    exec (decodeWire s.cfg c w) s = exec (.rxFrame c w) s := by
  by_cases h : (wireByte w 4).toNat ≤ 8
  · rw [decodeWire_ok s.cfg c h, exec_instrOfFrame (wireFrame_canonical h), exec, execRxFrame, receiveFrame_ok c h]
  · have h8 := Nat.not_le.1 h
    rw [decodeWire_illen s.cfg c h8, exec, exec, execIllen, execRxFrame, receiveFrame_error c h8]

/-- Settles O31: the invariants make `RX.FRAME` answer, and its 13 bytes' instruction answers the same. -/
theorem rxFrameRuns : Obligations.RxFrameRuns := by
  intro s c w hs
  obtain ⟨t, ht⟩ := exec_answers hs.pipes (.rxFrame c w)
  exact ⟨t, ht, (exec_decodeWire s c w).trans ht⟩

end Machine
end Sys2Proof
end

section
/-! SUPPORT. 40_frame_codec.md: units that stay with their adapter (R111), units without a frame (R112, R113), and
transmission (R116). -/

namespace Sys2Proof.Machine

/-! ## Waiting units -/

/-- R71: an instruction leaves the waiting words as they are. -/
theorem exec_pending {i : Instr} {s t : State} (h : exec i s = .next t) : t.pending = s.pending :=
  (exec_effect h).pending

/-- Settles O12: `takeWord` answers nothing where every word is held, and otherwise the first word that is not; what is
done with that word leaves the others waiting. -/
theorem heldUnitsStay : Obligations.HeldUnitsStay := by
  refine fun s => ⟨fun hall => ?_, fun before w after t hp hb hw ht => ?_⟩
  · have hnone : takeFirst s s.pending = none := takeFirst_none.2 fun w hmem => (held_iff s w).2 (hall w hmem)
    simp only [step, State.takeWord, hnone]
    rfl
  · simp only [step, takeWord_eq hp hb hw] at ht
    cases hd : decode s.cfg w with
    | ok i =>
      rw [hd] at ht
      exact exec_pending ht
    | error r =>
      rw [hd] at ht
      cases ht
      rfl

/-! ## Units without a frame -/

/-- Settles O32: a ready pipeline takes the unit, and its meaning is one event or nothing. -/
theorem rxNoFrame : Obligations.RxNoFrame := by
  refine fun s c n hr => ⟨?_, ?_⟩
  · rw [exec, execRxBadsize, rxGate_ready hr]
    rfl
  · rw [exec, execRxTimeout, rxGate_ready hr]
    rfl

/-- R111, R113: no unit of a dead connection is enabled. -/
theorem notEnabled_of_dead {s : State} {c : PipeId} (hc : c.toNat < s.cfg.nConn)
    (hdead : (s.pipe c.toNat).alive = false) {w : PortWord} (hw : rxPipeOf w = some c) : NotEnabled s w :=
  ⟨c, hw, hc, fun ⟨_, _, halive, _⟩ => by simp [hdead] at halive⟩

theorem connectionDead_pipe (c : PipeId) (kind : DeadKind) (s : State) :
    (connectionDead c kind s).pipe c.toNat = { s.pipe c.toNat with alive := false } :=
  State.setPipe_pipe_same ..

theorem onlyPipe_connectionDead (c : PipeId) (kind : DeadKind) (s : State) :
    OnlyPipe c s (connectionDead c kind s.begin) :=
  ⟨rfl, rfl, rfl, rfl, rfl, fun _ h => (State.setPipe_pipe ..).trans (if_neg h)⟩

/-- Settles O33: both units end the connection, each with its own kind. -/
theorem rxDead : Obligations.RxDead := by
  intro s c i kind hr hmem
  have hexec : exec i s = .next (connectionDead c kind s.begin) := by
    obtain ⟨rfl, rfl⟩ | ⟨rfl, rfl⟩ : i = .rxClosed c ∧ kind = .closed ∨ i = .rxError c ∧ kind = .error := by
      simpa using hmem
    · rw [exec, execRxClosed, rxGate_ready hr]
    · rw [exec, execRxError, rxGate_ready hr]
  have hpipe := connectionDead_pipe c kind s.begin
  refine ⟨_, hexec, onlyPipe_connectionDead c kind s, hpipe, rfl, fun w hw => ?_⟩
  obtain ⟨hc, -⟩ := hr
  exact notEnabled_of_dead (s := connectionDead c kind s.begin) hc (by rw [hpipe]) hw

/-! ## Transmission -/

/-- R116: an accepted request sends the word of its frame. -/
theorem execEncode_sends {s : State} {c : PipeId} (hc : c.toNat < s.cfg.nConn) (id : BitVec 29) {len : BitVec 4}
    (hlen : len.toNat ≤ 8) (payload : BitVec 64) : execEncode c id len payload s = .next { s with out :=
      { Outputs.empty with
        tx := some ⟨c, encodeFrame s.cfg.txIdFlags ⟨id, ⟨len.toNat, Nat.lt_succ_of_le hlen⟩, payload⟩⟩ } } :=
  (dif_pos hlen).trans (if_pos ((State.hasPipe_iff s c).2 hc))

/-- R99, R100: a request longer than 8 bytes is refused. -/
theorem execEncode_long {s : State} {c : PipeId} {id : BitVec 29} {len : BitVec 4} {payload : BitVec 64}
    (hlen : 8 < len.toNat) : execEncode c id len payload s = .next { s with out := refusal .tx } :=
  dif_neg (Nat.not_le.2 hlen)

/-- Settles O53: the word sent is `encode` of the request's frame, whose bytes are known. -/
theorem encodeSends : Obligations.EncodeSends :=
  fun _ _ id _ payload hc => ⟨fun hlen => ⟨_, execEncode_sends hc id hlen payload, encodeFrame_idWord ..,
    encodeFrame_len_toNat .., fun _ hi => encodeFrame_payloadByte _ _ hi⟩, execEncode_long⟩

end Sys2Proof.Machine
end

section
/-! SUPPORT. 41_dispatcher.md: where a received frame goes. The rows of the statements' route tables are rows of
`commandRows`, and a command row routes its frame to the handler of its command. The events that follow the routing
event of a stream frame are all events of the config-data stream (R267), so none of them is a routing event. -/

namespace Sys2Proof.Machine

open Host (Outcome)

/-! ## Handler numbers -/

/-- Settles O9: the known commands are those of `commandRows` and `CFG_DATA`, outside of which `handlerOf` is 0. -/
theorem handlerNumbers : Obligations.HandlerNumbers := by
  refine ⟨by decide, fun m hm => handlerOf_eq_zero (fun hs => hm ?_) fun hrow => hm ?_⟩
  · rw [hs]
    decide
  · have hsub : commandRows.map Prod.fst ⊆ [0x00, 0x01, 0x02, 0x03, 0x04, 0x05, 0x06, 0x07, 0x08, 0x0B, 0x10, 0x11,
        0x18, 0x1B, 0x1D, 0x1E, 0x1F, 0x20, 0x21, 0x22] := by decide
    exact hsub hrow

/-! ## Routed frames -/

/-- R130, R131: on a ready pipeline a frame of a handler outside the block leaves its record and one event. -/
theorem routeOnly_ready {s : State} {c : PipeId} (hr : Ready s c) (n : BitVec 5) (f : Frame) :
    routeOnly c n f s = .next { s with out := { Outputs.empty with
      events := [.dispatch c n f.resp], handler := some (handlerRecord c n f) } } :=
  rxGate_ready hr _

/-- R134: only the record of handler 1 has a valid sub-command. -/
theorem handlerRecord_of_ne {n : BitVec 5} (hn : n ≠ 1) (c : PipeId) (f : Frame) :
    handlerRecord c n f = ⟨c, n, f.resp, f, payloadByte f.payload 4, false⟩ := by
  have hsystem : (n == 1) = false := beq_false_of_ne hn
  rw [handlerRecord, hsystem, Bool.false_and, Frame.sysSubcmd]

theorem payloadByte_of_canonical {b : Body} (hb : b.canonical = true) {i : Nat} (hi : i < 8) (hlen : b.len.val ≤ i) :
    payloadByte b.payload i = 0#8 := by
  have hkeep : keepBytes b.len.val b.payload = b.payload := eq_of_beq hb
  rw [← hkeep, payloadByte_keepBytes _ (Nat.le_of_lt_succ b.len.isLt) _ i hi, if_neg (Nat.not_lt.2 hlen)]

/-- Settles O26: the record of `SYSTEM`'s frame is that of handler 1. -/
theorem systemRouted : Obligations.SystemRouted := by
  refine fun s c h b hr => ⟨?_, fun hb hlen => payloadByte_of_canonical hb (by decide) (Nat.le_of_lt_succ hlen)⟩
  rw [exec, execSystem, routeOnly_ready hr, handlerRecord, mkFrame_resp]
  rfl

/-- R132: a row of `commandRows` as a row of the statements' route tables. -/
def routeOf (c : PipeId) (h : Header) (b : Body) (e : BitVec 8 × (PipeId → Header → Body → Instr)) :
    Instr × BitVec 5 × BitVec 8 :=
  (e.2 c h b, handlerOf e.1, e.1)

theorem driveRoutes_eq (c : PipeId) (h : Header) (b : Body) :
    driveRoutes c h b = (commandRows.tail.take 9).map (routeOf c h b) := rfl

theorem otherRoutes_eq (c : PipeId) (h : Header) (b : Body) :
    otherRoutes c h b = (commandRows.tail.drop 9).map (routeOf c h b) := rfl

/-- R134: `SYSTEM`, the first row, is the only one of handler 1. -/
theorem systemHandler_notMem_tail : 1 ∉ commandRows.tail.map fun e => handlerOf e.1 := by decide

/-- R130, R131: a row other than `SYSTEM`'s on a ready pipeline. -/
theorem exec_route {s : State} {c : PipeId} (hr : Ready s c) {h : Header} {b : Body} {i : Instr} {n : BitVec 5}
    {m : BitVec 8} (hmem : (i, n, m) ∈ commandRows.tail.map (routeOf c h b)) :
    exec i s = .next { s with out := routedOut c n (mkFrame m h b) } := by
  obtain ⟨e, he, heq⟩ := List.mem_map.1 hmem
  cases heq
  have hn : handlerOf e.1 ≠ 1 := fun h => systemHandler_notMem_tail (List.mem_map.2 ⟨e, he, h⟩)
  rw [exec_commandRow h b e (List.mem_of_mem_tail he), routeOnly_ready hr, handlerRecord_of_ne hn]
  rfl

/-- Settles O27: the nine rows after `SYSTEM`'s. -/
theorem driveCommandsRouted : Obligations.DriveCommandsRouted := by
  intro s c h b i n m hr hmem
  rw [driveRoutes_eq] at hmem
  exact exec_route hr (List.map_subset _ (List.take_subset ..) hmem)

/-- Settles O28: the rows after those of O27. -/
theorem otherCommandsRouted : Obligations.OtherCommandsRouted := by
  intro s c h b i n m hr hmem
  rw [otherRoutes_eq] at hmem
  exact exec_route hr (List.map_subset _ (List.drop_subset ..) hmem)

/-! ## Dropped frames -/

/-- R86: `cmd9` is the command followed by the response bit. -/
theorem mkFrame_cmd9 (m : BitVec 8) (h : Header) (b : Body) : (mkFrame m h b).cmd9 = m ++ BitVec.ofBool h.resp := by
  apply BitVec.eq_of_toNat_eq
  rw [Frame.cmd9_toNat, mkFrame_cmd, mkFrame_resp, toNat_append_mul, BitVec.toNat_ofBool]
  omega

/-- Settles O29: behind the enable condition each of the two instructions emits its event. -/
theorem droppedFrames : Obligations.DroppedFrames := by
  refine fun s c hr => ⟨fun m h b => ?_, fun lenb => ?_⟩
  · rw [exec, execUnknown, rxGate_ready hr, mkFrame_cmd9]
    rfl
  · rw [exec, execIllen, rxGate_ready hr]
    rfl

/-! ## Events of the config-data stream -/

/-- R267: the events of the config-data stream, codes 0x20 to 0x29. -/
def Event.isStream : Event → Bool
  | .cdsAnnounced .. | .cdsData .. | .cdsTrigger .. | .cdsIgnored .. | .cdsComplete .. | .crcError ..
  | .inflateStart .. | .decompressError .. | .announceRefused .. | .cdsAcked .. => true
  | _ => false

theorem Event.not_routing_of_isStream {e : Event} (h : e.isStream = true) :
    (∀ c n r, e ≠ .dispatch c n r) ∧ (∀ c k, e ≠ .unknownCmd c k) ∧ ∀ c l, e ≠ .invalidLength c l := by
  refine ⟨?_, ?_, ?_⟩
  · rintro _ _ _ rfl
    cases h
  · rintro _ _ rfl
    cases h
  · rintro _ _ rfl
    cases h

theorem detectCompressed_isStream {c : PipeId} {p : Pipe} {e : PipeEffect} (h : detectCompressed c p = .ok e) :
    ∀ x ∈ e.events, x.isStream = true := by
  rcases detectCompressed_ok h with ⟨rfl, -⟩ | ⟨-, -, -, rfl⟩ | ⟨-, -, _, _, _, _, -, rfl⟩ <;>
    exact List.forall_mem_singleton.2 rfl

theorem complete_isStream {c : PipeId} {p : Pipe} {e : PipeEffect} (h : complete c p = .ok e) :
    ∀ x ∈ e.events, x.isStream = true := by
  obtain ⟨d, -, ⟨-, hd⟩ | ⟨-, rfl⟩⟩ := complete_ok h
  · exact detectCompressed_isStream hd
  · exact List.forall_mem_singleton.2 rfl

theorem dataFrame_isStream {c : PipeId} {hash : BitVec 16} {data : BitVec 64} {p : Pipe} {e : PipeEffect}
    (h : dataFrame c hash data p = .ok e) : ∀ x ∈ e.events, x.isStream = true := by
  rcases dataFrame_ok h with ⟨-, rfl⟩ | ⟨-, -, rfl⟩ | ⟨-, -, -, ha⟩
  · exact List.forall_mem_singleton.2 rfl
  · exact List.forall_mem_singleton.2 rfl
  · rcases appendData_ok ha with ⟨-, rfl⟩ | ⟨-, r, hr, rfl⟩
    · exact List.forall_mem_singleton.2 rfl
    · exact List.forall_mem_cons.2 ⟨rfl, complete_isStream hr⟩

theorem StreamMove.isStream {cfg : Config} {c : PipeId} {p : Pipe} {e : PipeEffect} (h : StreamMove cfg c p e) :
    ∀ x ∈ e.events, x.isStream = true := by
  cases h with
  | announce hash total crc flag =>
    rcases announce_cases cfg c hash total crc flag p with ⟨-, he⟩ | ⟨-, he⟩ <;> rw [he] <;>
      exact List.forall_mem_singleton.2 rfl
  | trigger => exact List.forall_mem_singleton.2 rfl
  | data hd => exact dataFrame_isStream hd
  | ignore => exact List.forall_mem_singleton.2 rfl

/-! ## The first event -/

/-- R155: the event by which `dispatch` says where it routed a frame. -/
def routingEvent (c : PipeId) (f : Frame) : Event :=
  if handlerOf f.cmd = 0 then .unknownCmd c f.cmd9 else .dispatch c (handlerOf f.cmd) f.resp

/-- R155: `dispatch` emits the routing event; only the config-data stream adds events, and those are its own. -/
theorem dispatch_events {s : State} {c : PipeId} (hp : PipeInv s.cfg (s.pipe c.toNat)) (f : Frame) :
    ∃ t rest, dispatch c f s = .next t ∧ t.out.events = s.out.events ++ routingEvent c f :: rest ∧
      (handlerOf f.cmd ≠ 19 → rest = []) ∧ ∀ e ∈ rest, e.isStream = true := by
  unfold routingEvent
  rcases dispatch_cases c f s with ⟨h0, hd⟩ | ⟨h19, hd⟩ | ⟨h0, -, hd⟩
  · exact ⟨_, [], hd, by rw [if_pos h0]; rfl, fun _ => rfl, List.forall_mem_nil _⟩
  · obtain ⟨e, he⟩ := cdsStep_answers hp c f
    refine ⟨(s.routed c 19 f).applyPipe c e, e.events, by rw [hd, he]; rfl, ?_, fun h => absurd h19 h,
      (cdsStep_streamMove he).isStream⟩
    rw [h19, State.applyPipe_events, State.routed_events, List.append_assoc]
    rfl
  · exact ⟨_, [], hd, by rw [if_neg h0]; rfl, fun _ => rfl, List.forall_mem_nil _⟩

theorem wireFrame_cmd9 {w : WireWord} (h : (wireByte w 4).toNat ≤ 8) : (wireFrame w h).cmd9 = w.extractLsb' 88 9 :=
  extractLsb'_field w 72 29 16 9 (by decide)

theorem wireFrame_resp {w : WireWord} (h : (wireByte w 4).toNat ≤ 8) : (wireFrame w h).resp = w.getLsbD 88 :=
  congrArg Header.resp (wireFrame_header h)

/-- R155: the routing event of a decoded frame, in the bits of its word. -/
theorem routingEvent_wireFrame (c : PipeId) {w : WireWord} (h : (wireByte w 4).toNat ≤ 8) :
    routingEvent c (wireFrame w h) =
      if handlerOf (w.extractLsb' 89 8) = 0 then .unknownCmd c (w.extractLsb' 88 9)
      else .dispatch c (handlerOf (w.extractLsb' 89 8)) (w.getLsbD 88) := by
  rw [routingEvent, wireFrame_cmd, wireFrame_cmd9, wireFrame_resp]

/-- Settles O30: a ready pipeline receives the frame; a bad length byte drops it with its event, any other leads to
`dispatch` of the word's frame. -/
theorem firstEvent : Obligations.FirstEvent := by
  intro s c w hs hr
  have hexec : exec (.rxFrame c w) s = receiveFrame c w s.begin := rxGate_ready hr _
  by_cases hlen : (wireByte w 4).toNat ≤ 8
  · have hlong : ¬ 8 < (wireByte w 4).toNat := Nat.not_lt.2 hlen
    obtain ⟨t, rest, ht, hevents, hrest, hstream⟩ :=
      dispatch_events (s := s.begin) (hs.pipes c.toNat) (wireFrame w hlen)
    rw [wireFrame_cmd] at hrest
    rw [routingEvent_wireFrame] at hevents
    refine ⟨t, rest, by rw [hexec, receiveFrame_ok c hlen, ht], ?_, fun h => hrest (h.resolve_left hlong),
      fun e he => Event.not_routing_of_isStream (hstream e he)⟩
    rw [if_neg hlong]
    exact hevents
  · have hlong := Nat.not_le.1 hlen
    refine ⟨_, [], by rw [hexec, receiveFrame_error c hlong], ?_, fun _ => rfl, List.forall_mem_nil _⟩
    rw [if_pos hlong]
    rfl

end Sys2Proof.Machine
end

section
/-! SUPPORT. 42_config_data_stream.md: what the frames of the config-data stream and `CDS_ACK` do to their pipeline. A
stream frame on a ready pipeline carries out its operation on the pipeline (`streamFrame_effect_of_ready`), so each
statement rests on the case of that operation it is about; a data frame is followed from the stored bytes
(`Pipe.withData`) to its completion. -/

namespace Sys2Proof.Machine

/-! ## Stream frames on a ready pipeline -/

/-- R152: a stream frame on a ready pipeline leaves its operation's pipeline, events and request behind the routing
outputs, and touches nothing else. -/
theorem streamFrame_effect_of_ready {s : State} {c : PipeId} (hr : Ready s c) (f : Frame)
    (op : Config → Pipe → Except Fault PipeEffect) {e : PipeEffect} (h : op s.cfg (s.pipe c.toNat) = .ok e) :
    ∃ t, streamFrame c f op s = .next t ∧ OnlyPipe c s t ∧ t.pipe c.toNat = e.pipe ∧
      t.out = { streamOut c f e.events with inflateRequest := e.request } := by
  refine ⟨_, streamFrame_ready hr f op e h, ⟨rfl, rfl, rfl, rfl, rfl, fun c' hc => ?_⟩, State.applyPipe_pipe_same ..,
    ?_⟩
  · rw [State.applyPipe_pipe, if_neg hc]
    rfl
  · rw [streamOut, ← handlerRecord_of_ne (n := 19) (by decide) c f]
    rfl

/-- R178 to R183: a data frame on a ready pipeline has the effect `dataFrame` says. -/
theorem cdsData_effect_of_ready {s : State} {c : PipeId} (hr : Ready s c) {h : Header} {data : BitVec 64}
    {e : PipeEffect} (he : dataFrame c h.hash data (s.pipe c.toNat) = .ok e) :
    ∃ t, exec (.cdsData c h data) s = .next t ∧ OnlyPipe c s t ∧ t.pipe c.toNat = e.pipe ∧
      t.out = { streamOut c (cds8Frame h data) e.events with inflateRequest := e.request } :=
  streamFrame_effect_of_ready hr _ (fun _ p => dataFrame c h.hash data p) he

/-! ## Announces -/

/-- R88, R172: the two instructions that announce `total` and `crc`, with their frame and their flag byte. -/
inductive AnnounceFrame (c : PipeId) (h : Header) (total : BitVec 32) (crc : BitVec 16) :
    Instr → Frame → Option Byte → Prop where
  | ann6 : AnnounceFrame c h total crc (.cdsAnn6 c h total crc) (ann6Frame h total crc) none
  | ann7 (flag : Byte) :
      AnnounceFrame c h total crc (.cdsAnn7 c h total crc flag) (ann7Frame h total crc flag) (some flag)

/-- R172, R173: both instructions carry out `announce`, `CDS.ANN6` without a flag byte. -/
theorem AnnounceFrame.exec_eq {c : PipeId} {h : Header} {total : BitVec 32} {crc : BitVec 16} {i : Instr} {f : Frame}
    {flag : Option Byte} (ha : AnnounceFrame c h total crc i f flag) (s : State) :
    exec i s = streamFrame c f (fun cfg p => .ok (announce cfg c h.hash total crc flag p)) s := by
  cases ha <;> rfl

/-- R172, R173: an announce on a ready pipeline has the effect `announce` says. -/
theorem AnnounceFrame.effect_of_ready {s : State} {c : PipeId} {h : Header} {total : BitVec 32} {crc : BitVec 16}
    {i : Instr} {f : Frame} {flag : Option Byte} (ha : AnnounceFrame c h total crc i f flag) (hr : Ready s c)
    {q : Pipe} {e : Event} (he : announce s.cfg c h.hash total crc flag (s.pipe c.toNat) = ⟨q, [e], none⟩) :
    ∃ t, exec i s = .next t ∧ OnlyPipe c s t ∧ t.pipe c.toNat = q ∧ t.out = streamOut c f [e] := by
  rw [ha.exec_eq]
  refine streamFrame_effect_of_ready hr f _ (e := ⟨q, [e], none⟩) ?_
  rw [he]

section
variable {cfg : Config} {c : PipeId} {hash crc : BitVec 16} {total : BitVec 32} {flag : Option Byte} {p : Pipe}

/-- R172: an announce of at most `MAX_TOTAL` opens a session. -/
theorem announce_of_le (h : total.toNat ≤ cfg.maxTotal) : announce cfg c hash total crc flag p = ⟨{ p with
      totalSize := total, crcAnn := crc, flag := flag.getD 0, flagValid := flag.isSome, sessHash := hash, rxCount := 0
      buf := [], crcCalc := 0, compressed := false, inflSize := 0, inflState := .inflNone, cdsState := .announced },
    [.cdsAnnounced c total crc hash], none⟩ :=
  if_neg (Nat.not_lt.2 h)

/-- R173: an announce above `MAX_TOTAL` clears the session. -/
theorem announce_of_gt (h : cfg.maxTotal < total.toNat) :
    announce cfg c hash total crc flag p = ⟨p.clearSession, [.announceRefused c total], none⟩ :=
  if_pos h

end

/-- Settles O34: both announce instructions open the session, with the empty buffer that no address reads from. -/
theorem announceOpens : Obligations.AnnounceOpens := by
  intro s c h total crc i f flag valid hr hle hi
  obtain ⟨flag?, ha, rfl, rfl⟩ : ∃ flag?, AnnounceFrame c h total crc i f flag? ∧ flag?.getD 0 = flag ∧
      flag?.isSome = valid := by
    rcases hi with ⟨rfl, rfl, rfl, rfl⟩ | ⟨rfl, rfl, rfl⟩
    · exact ⟨none, .ann6, rfl, rfl⟩
    · exact ⟨some flag, .ann7 flag, rfl, rfl⟩
  obtain ⟨t, ht, honly, hpipe, hout⟩ := ha.effect_of_ready hr (announce_of_le hle)
  exact ⟨t, ht, honly, hpipe, fun _ => by rw [hpipe]; rfl, hout⟩

/-- Settles O35: a ready pipeline's `run` and `alive` are set, and the cleared session keeps them. -/
theorem announceRefused : Obligations.AnnounceRefused := by
  intro s c h total crc i f hr hgt hi
  obtain ⟨flag?, ha⟩ : ∃ flag?, AnnounceFrame c h total crc i f flag? := by
    rcases hi with ⟨rfl, rfl⟩ | ⟨flag, rfl, rfl⟩
    · exact ⟨none, .ann6⟩
    · exact ⟨some flag, .ann7 flag⟩
  obtain ⟨t, ht, honly, hpipe, hout⟩ := ha.effect_of_ready hr (announce_of_gt hgt)
  obtain ⟨-, hrun, halive, -⟩ := hr
  exact ⟨t, ht, honly, by rw [hpipe, Pipe.clearSession, hrun, halive], hout⟩

/-! ## Triggers and ignored frames -/

/-- Settles O36: the trigger's operation answers in every state of the reassembler. -/
theorem triggerLatches : Obligations.TriggerLatches := fun _ c _ name hr =>
  streamFrame_effect_of_ready hr _ (fun _ p => .ok (trigger c name p)) rfl

/-- R178: the states in which a session is open. -/
theorem sessionOpen_iff (p : Pipe) :
    p.sessionOpen = true ↔ p.cdsState = .announced ∨ p.cdsState = .accumulating := by
  simp [Pipe.sessionOpen]

/-- R179, R180: a data frame that no open session is waiting for is ignored. -/
theorem dataFrame_of_not_openFor {p : Pipe} {hash : BitVec 16} (h : ¬OpenFor p hash) (c : PipeId) (data : BitVec 64) :
    dataFrame c hash data p = .ok (ignoreFrame c
      (if p.cdsState = .announced ∨ p.cdsState = .accumulating then .hashMismatch else .noSession) p) := by
  unfold dataFrame
  by_cases ho : p.cdsState = .announced ∨ p.cdsState = .accumulating
  · rw [if_pos ((sessionOpen_iff p).2 ho), if_neg fun hh => h ⟨ho, hh⟩, if_pos ho]
  · rw [if_neg (mt (sessionOpen_iff p).1 ho), if_neg ho]

/-- Settles O37: an ignored frame's operation leaves the pipeline as it was. -/
theorem streamFramesIgnored : Obligations.StreamFramesIgnored := fun _ c _ hr =>
  ⟨fun _ => streamFrame_effect_of_ready hr _ (fun _ p => .ok (ignoreFrame c .shortLen p)) rfl,
    fun data hno => cdsData_effect_of_ready hr (dataFrame_of_not_openFor hno c data)⟩

/-! ## Stored data -/

/-- R178: the pipeline once a data frame's bytes are stored, before the completion test. -/
def Pipe.withData (p : Pipe) (data : BitVec 64) : Pipe :=
  { p with
    buf := Memory.writeBytes p.buf p.rxCount.toNat (payloadBytes data)
    rxCount := p.rxCount + 8
    cdsState := .accumulating }

/-- R62: what the buffer holds once the bytes are stored. -/
theorem read_withData (p : Pipe) (data : BitVec 64) (a : Nat) :
    Memory.read (p.withData data).buf a = afterData p data a := by
  rw [Pipe.withData, Memory.read_writeBytes, afterData, payloadBytes_length]
  refine ite_congr rfl (fun hin => payloadBytes_getElem? data ?_) fun _ => rfl
  omega

/-- R178: a data frame of the open session is stored. -/
theorem dataFrame_of_openFor {p : Pipe} {hash : BitVec 16} (h : OpenFor p hash)
    (hle : p.rxCount.toNat ≤ p.totalSize.toNat) (c : PipeId) (data : BitVec 64) :
    dataFrame c hash data p = appendData c (p.withData data) := by
  obtain ⟨ho, hh⟩ := h
  simp only [dataFrame, memWrite8, if_pos ((sessionOpen_iff p).2 ho), if_pos hh, if_pos hle]
  rfl

/-- R178: with bytes missing the stream goes on. -/
theorem appendData_of_lt {p : Pipe} (h : p.rxCount.toNat < p.totalSize.toNat) (c : PipeId) :
    appendData c p = .ok ⟨p, [.cdsData c p.rxCount], none⟩ :=
  if_neg (Nat.not_le.2 h)

/-- R183: with all bytes there the stream is completed. -/
theorem appendData_of_complete {c : PipeId} {p : Pipe} {e : PipeEffect} (h : p.totalSize.toNat ≤ p.rxCount.toNat)
    (hc : complete c p = .ok e) : appendData c p = .ok { e with events := .cdsData c p.rxCount :: e.events } := by
  simp only [appendData, if_pos h, hc]

/-- Settles O38: the count after the frame is still below `total_size`, so the stored bytes are all that changes. -/
theorem dataAppended : Obligations.DataAppended := by
  intro s c h data p hr ho hlt
  have hle : p.rxCount.toNat ≤ p.totalSize.toNat := by omega
  have hmore : (p.withData data).rxCount.toNat < (p.withData data).totalSize.toNat :=
    (rxCount_add_eight hle).trans_lt hlt
  obtain ⟨t, ht, honly, hpipe, hout⟩ := cdsData_effect_of_ready hr
    ((dataFrame_of_openFor ho hle c data).trans (appendData_of_lt hmore c))
  exact ⟨t, ht, honly, by rw [hpipe]; rfl, fun a => by rw [hpipe]; exact read_withData p data a, hout⟩

/-! ## Completion -/

section
variable {c : PipeId} {p : Pipe} {data : BitVec 64} {d : List Byte}

/-- R183: the last frame makes the count reach `total_size`. -/
theorem LastFrame.count_reached (h : LastFrame p data d) :
    (p.withData data).totalSize.toNat ≤ (p.withData data).rxCount.toNat :=
  h.reached.trans_eq (rxCount_add_eight h.start).symm

/-- R205: after the last frame the completion reads the bytes of the stream. -/
theorem LastFrame.memRead (h : LastFrame p data d) :
    memRead (p.withData data) 0 (p.withData data).totalSize.toNat = some d :=
  memRead_eq_some.2 ⟨(Nat.zero_add _).trans_le h.count_reached, h.length, fun k hk => by
    rw [Nat.zero_add, read_withData]
    exact h.bytes k hk⟩

/-- R181: the bytes of the stream have the announced CRC. -/
theorem complete_of_crc_eq (hd : memRead p 0 p.totalSize.toNat = some d) (hcrc : crc16 d = p.crcAnn) :
    complete c p = detectCompressed c { p with crcCalc := p.crcAnn, cdsState := .complete } := by
  simp only [complete, hd, hcrc, if_true]

/-- R182: the bytes of the stream have another CRC. -/
theorem complete_of_crc_ne (hd : memRead p 0 p.totalSize.toNat = some d) (hcrc : crc16 d ≠ p.crcAnn) :
    complete c p = .ok (crcMismatch c { p with crcCalc := crc16 d }) := by
  simp only [complete, hd, if_neg hcrc]

/-- R63: a shorter read from the same address answers the first bytes of the longer one. -/
theorem memRead_take {a n m : Nat} (h : memRead p a n = some d) (hm : m ≤ n) : memRead p a m = some (d.take m) := by
  obtain ⟨hle, hlen, hbytes⟩ := memRead_eq_some.1 h
  refine memRead_eq_some.2 ⟨by omega, List.length_take_of_le (hlen ▸ hm), fun i hi => ?_⟩
  rw [hbytes i (by omega), List.getElem?_take_of_lt hi]

/-- R216: a stream that does not begin with a zero byte, or has no byte, is stored. -/
theorem detectCompressed_of_head_ne (hd : memRead p 0 p.totalSize.toNat = some d) (h0 : d.head? ≠ some 0#8) :
    detectCompressed c p = .ok (storedStream c p) := by
  obtain ⟨-, hlen, -⟩ := memRead_eq_some.1 hd
  cases d with
  | nil => exact if_neg (by simp [← hlen])
  | cons b d =>
    have hpos : 1 ≤ p.totalSize.toNat := by simp [← hlen]
    have hb : b ≠ 0#8 := fun h => h0 (congrArg some h)
    have hread : memRead p 0 1 = some [b] := memRead_take hd hpos
    simp only [detectCompressed, if_pos hpos, hread, if_neg hb]

/-- R178, R183: the data frame that completes the stream does what the completion of the stored bytes does, after its
own event. -/
theorem LastFrame.dataFrame {hash : BitVec 16} {e : PipeEffect} (h : LastFrame p data d) (ho : OpenFor p hash)
    (he : complete c (p.withData data) = .ok e) :
    dataFrame c hash data p = .ok { e with events := .cdsData c (p.rxCount + 8) :: e.events } :=
  (dataFrame_of_openFor ho h.start c data).trans (appendData_of_complete h.count_reached he)

end

/-- Settles O39: the completion finds the announced CRC and a stored stream. -/
theorem dataCompletesStored : Obligations.DataCompletesStored := by
  intro s c h data d p hr ho hlast hcrc h0
  have hcomplete : complete c (p.withData data) =
      .ok (storedStream c { p.withData data with crcCalc := p.crcAnn, cdsState := .complete }) :=
    (complete_of_crc_eq hlast.memRead hcrc).trans (detectCompressed_of_head_ne hlast.memRead h0)
  obtain ⟨t, ht, honly, hpipe, hout⟩ := cdsData_effect_of_ready hr (hlast.dataFrame ho hcomplete)
  exact ⟨t, ht, honly, by rw [hpipe]; rfl, fun a => by rw [hpipe]; exact read_withData p data a, hout⟩

/-- Settles O40: the completion finds another CRC, before any look at the first byte. -/
theorem dataCrcError : Obligations.DataCrcError := by
  intro s c h data d p hr ho hlast hcrc
  exact cdsData_effect_of_ready hr (hlast.dataFrame ho (complete_of_crc_ne hlast.memRead hcrc))

/-! ## Acknowledgement -/

/-- R96: a control operation on an existing pipeline. -/
theorem controlPipe_effect_of_hasPipe {s : State} {c : PipeId} (hc : c.toNat < s.cfg.nConn) {f : Pipe → PipeEffect}
    {q : Pipe} {es : List Event} (he : f (s.pipe c.toNat) = ⟨q, es, none⟩) :
    ∃ t, controlPipe c f s = .next t ∧ OnlyPipe c s t ∧ t.pipe c.toNat = q ∧ t.out = eventsOnly es := by
  refine ⟨_, if_pos ((s.hasPipe_iff c).2 hc), onlyPipe_applyPipe .., ?_, ?_⟩ <;> rw [he]
  · exact State.applyPipe_pipe_same ..
  · rfl

/-- Settles O44: `CDS_ACK` closes the session of a finished stream or does nothing. -/
theorem ackEffect : Obligations.AckEffect := by
  intro s c p hc
  rcases ackPipe_cases c p with ⟨hinfl, hstate, he⟩ | ⟨hno, he⟩
  · obtain ⟨t, ht, honly, hpq⟩ := controlPipe_effect_of_hasPipe hc he
    exact ⟨t, ht, honly, by rw [if_pos ⟨hinfl, hstate⟩]; exact hpq⟩
  · have hneg : ¬(p.inflState ≠ .inflPending ∧ (p.cdsState = .complete ∨ p.cdsState = .crcError)) := by tauto
    obtain ⟨t, ht, honly, hpq⟩ := controlPipe_effect_of_hasPipe hc he
    exact ⟨t, ht, honly, by rw [if_neg hneg]; exact hpq⟩

end Sys2Proof.Machine
end

section
/-! SUPPORT. 42_config_data_stream.md: the moves of the reassembler (R186). `CdsMove` lists what an instruction can make
of `cds_state`, and `exec_cdsMove` says that every instruction makes one of these moves of the pipeline it names. A frame
instruction and an RX unit that carries its 13 bytes are one case (`Carries`), because they do the same (R115). -/

namespace Sys2Proof.Machine

open Host (Outcome)

/-! ## The moves -/

/-- R88, R89: instruction `i` is the frame instruction `j`, on its own or inside an RX unit of pipeline `c`. -/
def Carries (cfg : Config) (c : PipeId) (i j : Instr) : Prop :=
  i = j ∨ ∃ w, i = .rxFrame c w ∧ decodeWire cfg c w = j

/-- R186: what instruction `i` can make of `cds_state` of its pipeline `p`. -/
inductive CdsMove (cfg : Config) (c : PipeId) (p : Pipe) (i : Instr) : CdsState → Prop where
  | keep : CdsMove cfg c p i p.cdsState
  | opened {h : Header} {total : BitVec 32} {crc : BitVec 16} {j : Instr} {f : Frame} {flag : Option Byte}
      (hj : Carries cfg c i j) (ha : AnnounceFrame c h total crc j f flag) (hle : total.toNat ≤ cfg.maxTotal) :
      CdsMove cfg c p i .announced
  | refused {h : Header} {total : BitVec 32} {crc : BitVec 16} {j : Instr} {f : Frame} {flag : Option Byte}
      (hj : Carries cfg c i j) (ha : AnnounceFrame c h total crc j f flag) (hgt : cfg.maxTotal < total.toNat) :
      CdsMove cfg c p i .idle
  | data {h : Header} {data : BitVec 64} {new : CdsState} (hj : Carries cfg c i (.cdsData c h data))
      (ho : OpenFor p h.hash) (hnew : new = .accumulating ∨ new = .complete ∨ new = .crcError) : CdsMove cfg c p i new
  | started (hi : i = .pipeStart c) : CdsMove cfg c p i .idle
  | acked (hi : i = .cdsAck c) (hold : p.cdsState = .complete ∨ p.cdsState = .crcError) : CdsMove cfg c p i .idle

/-- R216: the look at the first bytes does not move the reassembler. -/
theorem detectCompressed_cdsState {c : PipeId} {p : Pipe} {e : PipeEffect} (h : detectCompressed c p = .ok e) :
    e.pipe.cdsState = p.cdsState := by
  rcases detectCompressed_ok h with ⟨rfl, -⟩ | ⟨-, -, -, rfl⟩ | ⟨-, -, _, _, _, _, -, rfl⟩ <;> rfl

/-- R178, R183: a stored data frame leaves the reassembler accumulating, complete or in the CRC error. -/
theorem appendData_cdsState {c : PipeId} {p : Pipe} {e : PipeEffect} (h : appendData c p = .ok e)
    (hp : p.cdsState = .accumulating) :
    e.pipe.cdsState = .accumulating ∨ e.pipe.cdsState = .complete ∨ e.pipe.cdsState = .crcError := by
  rcases appendData_ok h with ⟨-, rfl⟩ | ⟨-, r, hr, rfl⟩
  · exact .inl hp
  · obtain ⟨d, -, ⟨-, hd⟩ | ⟨-, rfl⟩⟩ := complete_ok hr
    · exact .inr (.inl (detectCompressed_cdsState hd))
    · exact .inr (.inr rfl)

/-! ## Every instruction makes a move -/

section
variable {c : PipeId} {s t : State} {i j : Instr}

/-- R172, R173: an announce opens the session or discards it. -/
theorem announce_cdsMove {cfg : Config} {p : Pipe} {h : Header} {total : BitVec 32} {crc : BitVec 16} {f : Frame}
    {flag : Option Byte} (hj : Carries cfg c i j) (ha : AnnounceFrame c h total crc j f flag) :
    CdsMove cfg c p i (announce cfg c h.hash total crc flag p).pipe.cdsState := by
  rcases announce_cases cfg c h.hash total crc flag p with ⟨hgt, he⟩ | ⟨hle, he⟩ <;> rw [he]
  · exact .refused hj ha hgt
  · exact .opened hj ha hle

/-- R178 to R180: a data frame moves the reassembler only if it is of the open session. -/
theorem dataFrame_cdsMove {cfg : Config} {p : Pipe} {h : Header} {data : BitVec 64} {e : PipeEffect}
    (hj : Carries cfg c i (.cdsData c h data)) (he : dataFrame c h.hash data p = .ok e) :
    CdsMove cfg c p i e.pipe.cdsState := by
  rcases dataFrame_ok he with ⟨-, rfl⟩ | ⟨-, -, rfl⟩ | ⟨ho, hh, -, happ⟩
  · exact .keep
  · exact .keep
  · exact .data hj ⟨(sessionOpen_iff p).1 ho, hh⟩ (appendData_cdsState happ rfl)

/-- R111: a unit that is not carried out moves nothing. -/
theorem rxGate_cdsMove {k : State → Outcome State Fault Refusal} (h : rxGate c s k = .next t)
    (hk : k s.begin = .next t → CdsMove s.cfg c (s.pipe c.toNat) i (t.pipe c.toNat).cdsState) :
    CdsMove s.cfg c (s.pipe c.toNat) i (t.pipe c.toNat).cdsState := by
  rcases rxGate_cases c s k with ⟨-, -, he⟩ | ⟨-, -, he⟩ | ⟨-, he⟩ <;> rw [he] at h
  · exact hk h
  · cases h
    exact .keep
  · cases h
    exact .keep

/-- R131: a frame routed out of the block moves nothing. -/
theorem routeOnly_cdsMove {n : BitVec 5} {f : Frame} (h : routeOnly c n f s = .next t) :
    CdsMove s.cfg c (s.pipe c.toNat) i (t.pipe c.toNat).cdsState :=
  rxGate_cdsMove h fun hk => by cases hk; exact .keep

/-- R152: a stream frame moves what its operation moves. -/
theorem streamFrame_cdsMove {f : Frame} {op : Config → Pipe → Except Fault PipeEffect}
    (h : streamFrame c f op s = .next t)
    (hop : ∀ e, op s.cfg (s.pipe c.toNat) = .ok e → CdsMove s.cfg c (s.pipe c.toNat) i e.pipe.cdsState) :
    CdsMove s.cfg c (s.pipe c.toNat) i (t.pipe c.toNat).cdsState :=
  rxGate_cdsMove h fun hk => by
    obtain ⟨e, he, rfl⟩ := State.finishPipe_next hk
    rw [State.applyPipe_pipe_same]
    exact hop e he

theorem exec_announce_cdsMove {h : Header} {total : BitVec 32} {crc : BitVec 16} {f : Frame} {flag : Option Byte}
    (hj : Carries s.cfg c i j) (ha : AnnounceFrame c h total crc j f flag) (ht : exec j s = .next t) :
    CdsMove s.cfg c (s.pipe c.toNat) i (t.pipe c.toNat).cdsState := by
  rw [ha.exec_eq] at ht
  exact streamFrame_cdsMove ht fun e he => by cases he; exact announce_cdsMove hj ha

/-- R113: the end of a connection does not move the reassembler. -/
theorem rxGate_dead_cdsMove {kind : DeadKind} (h : rxGate c s (fun u => .next (connectionDead c kind u)) = .next t) :
    CdsMove s.cfg c (s.pipe c.toNat) i (t.pipe c.toNat).cdsState :=
  rxGate_cdsMove h fun hk => by
    cases hk
    rw [connectionDead_pipe]
    exact .keep

/-- R186: what a receive instruction other than `RX.FRAME` makes of `cds_state`. -/
theorem exec_rx_cdsMove (hj : Carries s.cfg c i j) (hc : j.rxPipe = some c) (hw : ∀ w, j ≠ .rxFrame c w)
    (h : exec j s = .next t) : CdsMove s.cfg c (s.pipe c.toNat) i (t.pipe c.toNat).cdsState := by
  unfold exec at h
  cases j with
  | system | discovery | bind | verify | speed | direction | function | readConfig | writeConfig | accSwitch | s88A
  | s88B | ping | bootloader | cfgStatus | vendor1E | vendor1F | vendor20 | vendor22 =>
    cases hc
    exact routeOnly_cdsMove h
  | illen | unknown | rxBadsize | rxTimeout =>
    cases hc
    exact rxGate_cdsMove h fun hk => by cases hk; exact .keep
  | cdsAnn6 =>
    cases hc
    exact exec_announce_cdsMove hj .ann6 h
  | cdsAnn7 _ _ _ _ flag =>
    cases hc
    exact exec_announce_cdsMove hj (.ann7 flag) h
  | cdsTrig | cdsShort =>
    cases hc
    exact streamFrame_cdsMove h fun e he => by cases he; exact .keep
  | cdsData =>
    cases hc
    exact streamFrame_cdsMove h fun e he => dataFrame_cdsMove hj he
  | rxFrame _ w =>
    cases hc
    exact absurd rfl (hw w)
  | rxClosed | rxError =>
    cases hc
    exact rxGate_dead_cdsMove h
  | isinuse | reserve | lock | release | canSetOrient | setOrient | reset | pipeStart | pipeStop | cdsAck | inflDone
  | encode => cases hc

/-- R185, R304: among the instructions of the other ports `PIPE_START` and `CDS_ACK` move the reassembler. -/
theorem PipeMove.cdsMove {cfg : Config} {p q : Pipe} (h : PipeMove cfg c p i q) (hi : i.rxPipe = none) :
    CdsMove cfg c p i q.cdsState := by
  cases h with
  | stream hx => cases hi.symm.trans hx
  | closed | error => cases hi
  | start => exact .started rfl
  | stop => exact .keep
  | ack =>
    rcases ackPipe_cases c p with ⟨-, hold, he⟩ | ⟨-, he⟩ <;> rw [he]
    · exact .acked rfl hold
    · exact .keep
  | answer ok n =>
    rcases inflateAnswer_cases c ok n p with ⟨-, -, he⟩ | ⟨-, he⟩ <;> rw [he] <;> exact .keep

end

/-- R89: the 13 bytes of an RX unit decode to the instruction of a frame, not to another unit. -/
theorem decodeWire_ne_rxFrame (cfg : Config) (c c' : PipeId) (w w' : WireWord) :
    decodeWire cfg c w ≠ .rxFrame c' w' := by
  unfold decodeWire
  split
  · nofun
  · unfold instrOfFrame
    split
    case h_19 =>
      split
      case h_3 => split <;> nofun
      all_goals nofun
    all_goals nofun

/-- R186: what an instruction makes of `cds_state` of the pipeline it names; `RX.FRAME` does what its frame does. -/
theorem exec_cdsMove {i : Instr} {c : PipeId} {s t : State} (hi : i.pipeOf = some c) (h : exec i s = .next t) :
    CdsMove s.cfg c (s.pipe c.toNat) i (t.pipe c.toNat).cdsState := by
  cases hx : i.rxPipe with
  | some c' =>
    obtain rfl : c' = c := Option.some.inj ((pipeOf_of_rxPipe hx).symm.trans hi)
    by_cases hw : ∃ w, i = .rxFrame c' w
    · obtain ⟨w, rfl⟩ := hw
      rw [← exec_decodeWire] at h
      exact exec_rx_cdsMove (.inr ⟨w, rfl, rfl⟩) (decodeWire_rxPipe ..) (decodeWire_ne_rxFrame s.cfg c' c' w) h
    · exact exec_rx_cdsMove (.inl rfl) hx (fun w hw' => hw ⟨w, hw'⟩) h
  | none =>
    rcases exec_pipeMove hi h with he | hm
    · exact he ▸ .keep
    · exact hm.cdsMove hx

/-- R186: a pipeline whose `cds_state` an instruction changes is reset, or is the one the instruction names. -/
theorem exec_reset_or_cdsMove {i : Instr} {s t : State} (c : PipeId) (h : exec i s = .next t) :
    (i = .reset ∧ (t.pipe c.toNat).cdsState = .idle) ∨
      CdsMove s.cfg c (s.pipe c.toNat) i (t.pipe c.toNat).cdsState := by
  by_cases hr : i = .reset
  · subst hr
    cases h
    exact .inl ⟨rfl, rfl⟩
  · by_cases hi : i.pipeOf = some c
    · exact .inr (exec_cdsMove hi h)
    · have hsame : t.pipe c.toNat = s.pipe c.toNat := pipelinesPrivate i s t c.toNat h hr fun c' hc' he =>
        hi (hc'.trans (congrArg some (BitVec.eq_of_toNat_eq he)))
      exact .inr (hsame ▸ .keep)

/-- R172: the announce that `i` carries, in the two forms of the statement. -/
theorem AnnounceFrame.carried {cfg : Config} {c : PipeId} {h : Header} {total : BitVec 32} {crc : BitVec 16}
    {i j : Instr} {f : Frame} {flag : Option Byte} (ha : AnnounceFrame c h total crc j f flag)
    (hj : Carries cfg c i j) :
    (∃ h crc, Carries cfg c i (.cdsAnn6 c h total crc)) ∨
      ∃ h crc flag, Carries cfg c i (.cdsAnn7 c h total crc flag) := by
  cases ha with
  | ann6 => exact .inl ⟨h, crc, hj⟩
  | ann7 flag => exact .inr ⟨h, crc, flag, hj⟩

/-- Settles O58: a changed `cds_state` is the work of `RESET` or of one of the moves of `CdsMove` but the first. -/
theorem cdsTransitions : Obligations.CdsTransitions := by
  intro i s t c h old new frame announce hne
  rcases exec_reset_or_cdsMove c h with ⟨hi, hidle⟩ | hm
  · exact .inr (.inl ⟨hidle, .inr (.inr (.inl hi))⟩)
  · change CdsMove s.cfg c (s.pipe c.toNat) i new at hm
    clear_value new
    cases hm with
    | keep => exact absurd rfl hne
    | opened hj ha hle => exact .inl ⟨rfl, _, ha.carried hj, hle⟩
    | refused hj ha hgt => exact .inr (.inl ⟨rfl, .inl ⟨_, ha.carried hj, hgt⟩⟩)
    | started hi => exact .inr (.inl ⟨rfl, .inr (.inl hi)⟩)
    | acked hi hold => exact .inr (.inl ⟨rfl, .inr (.inr (.inr ⟨hi, hold⟩))⟩)
    | data hj ho hnew =>
      obtain ⟨hopen, hhash⟩ := ho
      exact .inr (.inr ⟨hnew, hopen, _, _, hj, hhash⟩)

end Sys2Proof.Machine
end

section
/-! SUPPORT. 43_crc16.md: the CRC engine. The register is a polynomial over GF(2). The forms of R204 and the laws of R209
rest on two facts about one shift, that it is linear and that it is injective, and on what eight shifts make of the
register (`crcShifts_eight`): the low byte moves up, and the byte shifted out comes back as `crcFeedback` of it. -/

namespace Sys2Proof.Machine

/-! ## One shift and `n` shifts -/

/-- R202: linearity of the shift over GF(2). -/
theorem crcShift_xor (a b : BitVec 16) : crcShift (a ^^^ b) = crcShift a ^^^ crcShift b := by
  unfold crcShift
  rw [BitVec.getLsbD_xor, BitVec.shiftLeft_xor_distrib]
  generalize 0x1021#16 = poly, a <<< 1 = x, b <<< 1 = y
  cases a.getLsbD 15 <;> cases b.getLsbD 15
  case false.false => rfl
  case false.true => exact BitVec.xor_assoc ..
  case true.false =>
    change x ^^^ y ^^^ poly = x ^^^ poly ^^^ y
    ac_rfl
  case true.true =>
    change x ^^^ y = x ^^^ poly ^^^ (y ^^^ poly)
    rw [BitVec.xor_comm y, ← BitVec.xor_assoc, BitVec.xor_assoc x, BitVec.xor_self, BitVec.xor_zero]

/-- R202: the polynomial is odd, so the bit shifted out stands in bit 0 afterwards. -/
theorem crcShift_bit_zero (r : BitVec 16) : (crcShift r).getLsbD 0 = r.getLsbD 15 := by
  unfold crcShift
  split <;> simp_all

/-- R202: no shift loses anything, because bit 0 tells whether the polynomial was added. -/
theorem crcShift_injective : Function.Injective crcShift := by
  intro a b h
  have htop : a.getLsbD 15 = b.getLsbD 15 := by rw [← crcShift_bit_zero, h, crcShift_bit_zero]
  have hlow : a <<< 1 = b <<< 1 := by
    unfold crcShift at h
    rw [htop] at h
    split at h
    · exact (BitVec.xor_left_inj _).mp h
    · exact h
  apply BitVec.eq_of_getLsbD_eq
  intro i hi
  by_cases h15 : i = 15
  · exact h15 ▸ htop
  · have hbit := congrArg (·.getLsbD (i + 1)) hlow
    have hlt : i + 1 < 16 := by omega
    simpa [hlt, hi, BitVec.getLsbD_eq_getElem] using hbit

@[simp] theorem crcShifts_zero (r : BitVec 16) : crcShifts 0 r = r := rfl

theorem crcShifts_succ (n : Nat) (r : BitVec 16) : crcShifts (n + 1) r = crcShifts n (crcShift r) := rfl

theorem crcShifts_add (m n : Nat) (r : BitVec 16) : crcShifts (m + n) r = crcShifts n (crcShifts m r) := by
  induction m generalizing r with
  | zero => rw [Nat.zero_add, crcShifts_zero]
  | succ m ih => rw [Nat.succ_add, crcShifts_succ, crcShifts_succ, ih]

theorem crcShifts_xor (n : Nat) (a b : BitVec 16) : crcShifts n (a ^^^ b) = crcShifts n a ^^^ crcShifts n b := by
  induction n generalizing a b with
  | zero => rfl
  | succ n ih => rw [crcShifts_succ, crcShift_xor, ih]; rfl

theorem crcShifts_injective (n : Nat) : Function.Injective (crcShifts n) := by
  induction n with
  | zero => exact fun _ _ h => h
  | succ n ih => exact ih.comp crcShift_injective

/-- R202: while the bits shifted out are clear, a shift is only a shift. -/
theorem crcShifts_of_lt (n : Nat) (r : BitVec 16) (h : r.toNat * 2 ^ n < 2 ^ 16) : crcShifts n r = r <<< n := by
  induction n generalizing r with
  | zero => simp
  | succ n ih =>
    rw [Nat.pow_succ', ← Nat.mul_assoc] at h
    have hr : r.toNat * 2 < 2 ^ 16 := (Nat.le_mul_of_pos_right _ (Nat.two_pow_pos n)).trans_lt h
    have htop : r.getLsbD 15 = false := Nat.testBit_lt_two_pow (by omega)
    have hs : crcShift r = r <<< 1 := by rw [crcShift, htop]; rfl
    have hnat : (r <<< 1).toNat = r.toNat * 2 := by bv_omega
    rw [crcShifts_succ, hs, ih _ (hnat ▸ h), ← BitVec.shiftLeft_add, Nat.add_comm]

/-! ## The bits shifted out -/

/-- R201: the product with `x^12 + x^5 + 1`, to which `x^16` reduces. -/
def crcTimesPoly (x : BitVec 16) : BitVec 16 := (x <<< 12) ^^^ (x <<< 5) ^^^ x

theorem crcTimesPoly_xor (x y : BitVec 16) : crcTimesPoly (x ^^^ y) = crcTimesPoly x ^^^ crcTimesPoly y := by
  simp only [crcTimesPoly, BitVec.shiftLeft_xor_distrib]
  ac_rfl

theorem crcTimesPoly_shiftLeft (x : BitVec 16) (n : Nat) : crcTimesPoly (x <<< n) = crcTimesPoly x <<< n := by
  simp only [crcTimesPoly, BitVec.shiftLeft_xor_distrib, ← BitVec.shiftLeft_add, Nat.add_comm]

/-- R202: four shifts of a nibble at the top multiply it by the polynomial; the product fits the register. -/
theorem crcShifts_four_nibble : ∀ u : BitVec 4, crcShifts 4 (u.setWidth 16 <<< 12) = crcTimesPoly (u.setWidth 16) := by
  decide

theorem crcTimesPoly_nibble_top : ∀ u : BitVec 4, crcTimesPoly (u.setWidth 16) >>> 12 = u.setWidth 16 := by
  decide

/-- The low twelve bits and the top nibble. -/
theorem nibble_split (r : BitVec 16) : (r <<< 4) >>> 4 ^^^ (r >>> 12) <<< 12 = r := by
  apply BitVec.eq_of_getLsbD_eq
  intro i hi
  by_cases h : i < 12
  · grind
  · grind

/-- The top byte, nibble by nibble. -/
theorem nibble_join (r : BitVec 16) : (r >>> 12) <<< 4 ^^^ (r <<< 4) >>> 12 = r >>> 8 := by
  apply BitVec.eq_of_getLsbD_eq
  intro i hi
  by_cases h : i < 4
  · grind
  · grind

theorem top_nibble_eq (r : BitVec 16) : ((r >>> 12).setWidth 4).setWidth 16 = r >>> 12 := by
  bv_omega

/-- R202: four shifts: the nibble shifted out comes back as its product with the polynomial. -/
theorem crcShifts_four (r : BitVec 16) : crcShifts 4 r = (r <<< 4) ^^^ crcTimesPoly (r >>> 12) := by
  have hlow : crcShifts 4 ((r <<< 4) >>> 4) = r <<< 4 := by
    rw [crcShifts_of_lt _ _ (by bv_omega)]
    bv_omega
  have hnibble : crcShifts 4 ((r >>> 12) <<< 12) = crcTimesPoly (r >>> 12) := by
    rw [← top_nibble_eq r, crcShifts_four_nibble]
  calc crcShifts 4 r = crcShifts 4 ((r <<< 4) >>> 4) ^^^ crcShifts 4 ((r >>> 12) <<< 12) := by
        rw [← crcShifts_xor, nibble_split]
    _ = _ := by rw [hlow, hnibble]

/-- R204: what the byte-at-a-time form makes of the byte shifted out. -/
def crcFeedback (y : BitVec 16) : BitVec 16 := crcTimesPoly (y ^^^ (y >>> 4))

/-- R204: eight shifts are twice four, and the nibble shifted out first is shifted out again. -/
theorem crcShifts_eight (r : BitVec 16) : crcShifts 8 r = (r <<< 8) ^^^ crcFeedback (r >>> 8) := by
  have hagain : crcTimesPoly (r >>> 12) >>> 12 = r >>> 12 := by
    rw [← top_nibble_eq r, crcTimesPoly_nibble_top]
  rw [show 8 = 4 + 4 from rfl, crcShifts_add, crcShifts_four r, crcShifts_four]
  rw [BitVec.shiftLeft_xor_distrib, BitVec.ushiftRight_xor_distrib, hagain, ← crcTimesPoly_shiftLeft,
    BitVec.xor_assoc, ← crcTimesPoly_xor, ← BitVec.xor_assoc, nibble_join, ← BitVec.shiftLeft_add]
  rw [crcFeedback, ← BitVec.shiftRight_add]

/-! ## The update by one byte -/

/-- R202: the byte enters at the top. -/
def byteAtTop (b : Byte) : BitVec 16 := b.setWidth 16 <<< 8

theorem crcUpdate_eq (r : BitVec 16) (b : Byte) : crcUpdate r b = crcShifts 8 (r ^^^ byteAtTop b) := rfl

theorem byteAtTop_xor (b c : Byte) : byteAtTop (b ^^^ c) = byteAtTop b ^^^ byteAtTop c := by
  rw [byteAtTop, BitVec.setWidth_xor, BitVec.shiftLeft_xor_distrib]; rfl

theorem byteAtTop_injective : Function.Injective byteAtTop := by
  intro b c h
  unfold byteAtTop at h
  bv_omega

/-- R202: linearity of the update, in register and byte together. -/
theorem crcUpdate_xor (r s : BitVec 16) (b c : Byte) : crcUpdate (r ^^^ s) (b ^^^ c) = crcUpdate r b ^^^ crcUpdate s c := by
  rw [crcUpdate_eq, crcUpdate_eq, crcUpdate_eq, byteAtTop_xor, ← crcShifts_xor]
  congr 1
  ac_rfl

theorem crcUpdate_injective_reg (b : Byte) : Function.Injective (crcUpdate · b) :=
  fun _ _ h => (BitVec.xor_left_inj _).mp (crcShifts_injective 8 h)

theorem crcUpdate_injective_byte (r : BitVec 16) : Function.Injective (crcUpdate r) :=
  fun _ _ h => byteAtTop_injective ((BitVec.xor_right_inj _).mp (crcShifts_injective 8 h))

/-- R204: the byte that the update shifts out. -/
def crcIndex (r : BitVec 16) (b : Byte) : Byte := (r >>> 8).setWidth 8 ^^^ b

theorem crcUpdate_eq_feedback (r : BitVec 16) (b : Byte) :
    crcUpdate r b = (r <<< 8) ^^^ crcFeedback ((crcIndex r b).setWidth 16) := by
  have hlow : (r ^^^ byteAtTop b) <<< 8 = r <<< 8 := by
    rw [byteAtTop, BitVec.shiftLeft_xor_distrib, ← BitVec.shiftLeft_add]
    simp
  have hhigh : (r ^^^ byteAtTop b) >>> 8 = (crcIndex r b).setWidth 16 := by
    rw [byteAtTop, crcIndex, BitVec.ushiftRight_xor_distrib, BitVec.setWidth_xor]
    congr 1
    · bv_omega
    · bv_omega
  rw [crcUpdate_eq, crcShifts_eight, hlow, hhigh]

theorem crcUpdateByte_eq_feedback (r : BitVec 16) (b : Byte) :
    crcUpdateByte r b = (r <<< 8) ^^^ crcFeedback ((crcIndex r b).setWidth 16) := by
  have hshift : (crcIndex r b).setWidth 16 >>> 4 = (crcIndex r b >>> 4).setWidth 16 := by bv_omega
  rw [crcFeedback, hshift, ← BitVec.setWidth_xor, crcTimesPoly, ← BitVec.xor_assoc, ← BitVec.xor_assoc]
  rfl

/-- R204: a table entry is the feedback of its index. -/
theorem crcUpdate_zero (i : Byte) : crcUpdate 0 i = crcFeedback (i.setWidth 16) := by
  have hi : crcIndex 0 i = i := by simp [crcIndex]
  rw [crcUpdate_eq_feedback, hi]
  exact BitVec.zero_xor

/-- R204: the register's own high byte clears the byte shifted out, which leaves a plain shift. -/
theorem crcUpdate_high_byte (r : BitVec 16) : crcUpdate r (r.extractLsb' 8 8) = r <<< 8 := by
  have hi : crcIndex r (r.extractLsb' 8 8) = 0 := by
    rw [crcIndex, BitVec.setWidth_ushiftRight_eq_extractLsb]
    exact BitVec.xor_self
  rw [crcUpdate_eq_feedback, hi]
  exact BitVec.xor_zero

/-- Settles O54: each form of R204 is the low byte moved up, with the feedback of the byte shifted out. -/
theorem crcForms : Obligations.CrcForms := by
  refine ⟨fun r b => ?_, fun r b => ?_, ?_, ?_, ?_, ?_⟩
  · rw [crcUpdate_eq_feedback, crcUpdateByte_eq_feedback]
  · rw [crcUpdate_eq_feedback, crcUpdate_zero, crcIndex]
  all_goals decide

/-! ## The fold over a sequence -/

@[simp] theorem crcFold_nil (r : BitVec 16) : crcFold r [] = r := rfl

@[simp] theorem crcFold_cons (r : BitVec 16) (b : Byte) (d : List Byte) :
    crcFold r (b :: d) = crcFold (crcUpdate r b) d := rfl

/-- R209 (b): composition. -/
theorem crcFold_append (r : BitVec 16) (a b : List Byte) : crcFold r (a ++ b) = crcFold (crcFold r a) b := by
  induction a generalizing r with
  | nil => rfl
  | cons x a ih => exact ih (crcUpdate r x)

/-- R209 (c): linearity in register and sequence together. -/
theorem crcFold_xor {a b : List Byte} (h : a.length = b.length) (r s : BitVec 16) :
    crcFold (r ^^^ s) (List.zipWith (· ^^^ ·) a b) = crcFold r a ^^^ crcFold s b := by
  induction a generalizing b r s with
  | nil => rw [List.length_eq_zero_iff.mp h.symm]; rfl
  | cons x a ih =>
    cases b with
    | nil => cases h
    | cons y b =>
      rw [List.zipWith_cons_cons, crcFold_cons, crcFold_cons, crcFold_cons, crcUpdate_xor]
      exact ih (Nat.succ.inj h) ..

/-- R209 (e): what follows a difference does not hide it. -/
theorem crcFold_injective (d : List Byte) : Function.Injective (crcFold · d) := by
  induction d with
  | nil => exact fun _ _ h => h
  | cons x d ih => exact ih.comp (crcUpdate_injective_reg x)

/-- R209 (d): the two bytes of the register, high byte first, clear it: each update shifts in a clear byte. -/
theorem crcFold_residue (r : BitVec 16) : crcFold r [r.extractLsb' 8 8, r.extractLsb' 0 8] = 0 := by
  have hhigh := crcUpdate_high_byte r
  have hlow := crcUpdate_high_byte (r <<< 8)
  have hbyte : (r <<< 8).extractLsb' 8 8 = r.extractLsb' 0 8 := by
    rw [← BitVec.setWidth_ushiftRight_eq_extractLsb, ← BitVec.setWidth_ushiftRight_eq_extractLsb]
    bv_omega
  rw [hbyte] at hlow
  rw [crcFold_cons, crcFold_cons, crcFold_nil, hhigh, hlow, ← BitVec.shiftLeft_add]
  exact BitVec.shiftLeft_eq_zero (Nat.le_refl 16)

theorem crc16_append (a b : List Byte) : crc16 (a ++ b) = crcFold (crc16 a) b := crcFold_append ..

/-- R209 (c): the seeds of three CRCs add up to one. -/
theorem crc16_xor {a b c : List Byte} (hab : a.length = b.length) (hbc : b.length = c.length) :
    crc16 a ^^^ crc16 b ^^^ crc16 c = crc16 (List.zipWith (· ^^^ ·) (List.zipWith (· ^^^ ·) a b) c) := by
  have habc : (List.zipWith (· ^^^ ·) a b).length = c.length := by simp [hab, hbc]
  unfold crc16
  rw [← crcFold_xor hab, ← crcFold_xor habc]
  rfl

/-- R188: a change confined to one byte is detected. -/
theorem crc16_ne_of_byte_ne {x y : Byte} (h : x ≠ y) (a d : List Byte) : crc16 (a ++ x :: d) ≠ crc16 (a ++ y :: d) := by
  rw [crc16_append, crc16_append]
  exact fun he => h (crcUpdate_injective_byte _ (crcFold_injective d he))

/-- Settles O55: the laws are those of the fold, from the seed. -/
theorem crcLaws : Obligations.CrcLaws :=
  ⟨crc16_append, fun _ _ _ => crc16_xor, fun _ => (crc16_append ..).trans (crcFold_residue _),
    fun a _ _ d h => crc16_ne_of_byte_ne h a d⟩

/-! ## Worked values -/

/-- R210: the nine ASCII digits, by way of the register after each. -/
theorem crc16_digits : crc16 [0x31, 0x32, 0x33, 0x34, 0x35, 0x36, 0x37, 0x38, 0x39] = 0x29B1 := by
  have h1 : crcUpdate 0xFFFF#16 0x31 = 0xC782 := by decide
  have h2 : crcUpdate 0xC782 0x32 = 0x3DBA := by decide
  have h3 : crcUpdate 0x3DBA 0x33 = 0x5BCE := by decide
  have h4 : crcUpdate 0x5BCE 0x34 = 0x5349 := by decide
  have h5 : crcUpdate 0x5349 0x35 = 0x4560 := by decide
  have h6 : crcUpdate 0x4560 0x36 = 0x2EF4 := by decide
  have h7 : crcUpdate 0x2EF4 0x37 = 0x7718 := by decide
  have h8 : crcUpdate 0x7718 0x38 = 0xA12B := by decide
  have h9 : crcUpdate 0xA12B 0x39 = 0x29B1 := by decide
  simp only [crc16, crcFold_cons, crcFold_nil, h1, h2, h3, h4, h5, h6, h7, h8, h9]

/-- Settles O56: the other values are short enough to be computed at once. -/
theorem crcValues : Obligations.CrcValues := by
  refine ⟨?_, ?_, ?_, ?_, ?_, ?_, crc16_digits, ?_, ?_⟩
  all_goals decide

end Sys2Proof.Machine
end

section
/-! SUPPORT. 44_inflate_control.md: compressed streams. A data frame that completes a stream beginning with a zero byte is
followed through `detectCompressed` (R216 to R218), and `INFL_DONE` through `inflateAnswer` (R219). The theorem of O43
stands in the namespace `Sys2Proof`, because the model has a `Machine.inflateAnswer`. -/

namespace Sys2Proof

namespace Machine

/-! ## The first bytes of a complete stream -/

section
variable {c : PipeId} {p : Pipe} {data : BitVec 64} {d : List Byte}

/-- R63: a read answers as many bytes as it asks for. -/
theorem length_of_memRead {a n : Nat} (h : memRead p a n = some d) : d.length = n := by
  obtain ⟨-, hlen, -⟩ := memRead_eq_some.1 h
  exact hlen

/-- R217, R218: with the expected length to read, the inflater is asked for the bytes behind it. -/
theorem startInflate_of_memRead {b0 b1 b2 b3 : Byte} (hd : memRead p 0 4 = some [b0, b1, b2, b3]) :
    startInflate c p = .ok ⟨{ p with inflSize := be32 b0 b1 b2 b3, inflState := .inflPending },
      [.inflateStart c 4 (p.totalSize - 4) (be32 b0 b1 b2 b3)],
      some ⟨c, 4, p.totalSize - 4, be32 b0 b1 b2 b3⟩⟩ := by
  simp only [startInflate, hd]
  rfl

/-- R216: a stream that begins with a zero byte is compressed; `d` decides whether the four
bytes of the expected length are there. -/
theorem detectCompressed_of_zero (hd : memRead p 0 p.totalSize.toNat = some (0#8 :: d)) :
    detectCompressed c p =
      if d.length < 3 then
        .ok ⟨{ p with compressed := true, inflState := .inflErr }, [.decompressError c .shortPrefix], none⟩
      else startInflate c { p with compressed := true } := by
  have hlen : d.length + 1 = p.totalSize.toNat := length_of_memRead hd
  have hread : memRead p 0 1 = some [0#8] := memRead_take hd (by omega)
  have hshort : p.totalSize.toNat < 4 ↔ d.length < 3 := by omega
  simp only [detectCompressed, if_pos (show 1 ≤ p.totalSize.toNat by omega), hread, if_true, hshort]

/-- R181: the data frame that completes a stream of the announced CRC does what the look at its first bytes says. -/
theorem LastFrame.dataFrame_of_crc_eq {hash : BitVec 16} {e : PipeEffect} (h : LastFrame p data d) (ho : OpenFor p hash)
    (hcrc : crc16 d = p.crcAnn)
    (he : detectCompressed c { p.withData data with crcCalc := p.crcAnn, cdsState := .complete } = .ok e) :
    Machine.dataFrame c hash data p = .ok { e with events := .cdsData c (p.rxCount + 8) :: e.events } :=
  h.dataFrame ho ((complete_of_crc_eq h.memRead hcrc).trans he)

end

/-- Settles O41: the stream begins with a zero byte and holds the four bytes of the expected length. -/
theorem dataStartsInflate : Obligations.DataStartsInflate := by
  intro s c h data b1 b2 b3 d p hr ho hlast hcrc size
  have hfour : 4 ≤ p.totalSize.toNat := by
    rw [← hlast.length]
    simp
  have hlong : ¬(b1 :: b2 :: b3 :: d).length < 3 := by simp
  have hfirst : memRead (p.withData data) 0 4 = some [0#8, b1, b2, b3] := memRead_take hlast.memRead hfour
  have hdetect := (detectCompressed_of_zero (c := c)
    (p := { p.withData data with crcCalc := p.crcAnn, cdsState := .complete }) hlast.memRead).trans
    ((if_neg hlong).trans (startInflate_of_memRead hfirst))
  obtain ⟨t, ht, honly, hpipe, hout⟩ := cdsData_effect_of_ready hr (hlast.dataFrame_of_crc_eq ho hcrc hdetect)
  exact ⟨t, ht, honly, by rw [hpipe]; rfl, fun a => by rw [hpipe]; exact read_withData p data a, hout⟩

/-- Settles O42: the stream begins with a zero byte and ends before the expected length does. -/
theorem dataShortPrefix : Obligations.DataShortPrefix := by
  intro s c h data d p hr ho hlast hcrc hshort
  have hdetect := (detectCompressed_of_zero (c := c)
    (p := { p.withData data with crcCalc := p.crcAnn, cdsState := .complete }) hlast.memRead).trans (if_pos hshort)
  obtain ⟨t, ht, honly, hpipe, hout⟩ := cdsData_effect_of_ready hr (hlast.dataFrame_of_crc_eq ho hcrc hdetect)
  exact ⟨t, ht, honly, by rw [hpipe]; rfl, fun a => by rw [hpipe]; exact read_withData p data a, hout⟩

/-! ## The inflater's answer -/

/-- R219: an answer that a pending inflation waits for has the effect `inflateAnswer` says. -/
theorem inflDone_effect_of_pending {s : State} {c : PipeId} (hc : c.toNat < s.cfg.nConn)
    (hp : (s.pipe c.toNat).inflState = .inflPending) {ok : Bool} {outLen : BitVec 32} {q : Pipe} {e : Event}
    (he : inflateAnswer c ok outLen (s.pipe c.toNat) = ⟨q, [e], none⟩) :
    ∃ t, exec (.inflDone c ok outLen) s = .next t ∧ OnlyPipe c s t ∧ t.pipe c.toNat = q ∧ t.out = eventsOnly [e] := by
  have haccept : (s.hasPipe c && (s.pipe c.toNat).inflState == .inflPending) = true := by
    simp [s.hasPipe_iff c, hc, hp]
  refine ⟨_, if_pos haccept, onlyPipe_applyPipe .., ?_, ?_⟩ <;> rw [he]
  · exact State.applyPipe_pipe_same ..
  · rfl

end Machine

open Machine

/-- Settles O43: an awaited answer succeeds or fails; a stray one is refused. -/
theorem inflateAnswer : Obligations.InflateAnswer := by
  intro s c ok outLen p hc
  refine ⟨fun hp => ?_, fun hp => ?_⟩
  · rcases inflateAnswer_cases c ok outLen p with ⟨hok, hlen, he⟩ | ⟨hno, he⟩
    · have hyes : ok = true ∧ outLen = p.inflSize := ⟨hok, hlen⟩
      obtain ⟨t, ht, honly, hpq⟩ := inflDone_effect_of_pending hc hp he
      exact ⟨t, ht, honly, by rw [if_pos hyes]; exact hpq⟩
    · obtain ⟨t, ht, honly, hpipe, hout⟩ := inflDone_effect_of_pending hc hp he
      refine ⟨t, ht, honly, ?_⟩
      rw [if_neg hno]
      exact ⟨hpipe, hout.trans (by cases ok <;> rfl)⟩
  · rw [(exec_judged (.inflDone c ok outLen) s).refused (.inr hp), badRequest_eq]
    rfl

end Sys2Proof
end

section
/-! SUPPORT. R222, R73: what `EV_CDS_COMPLETE` promises the consumer. `Delivered` is the promise, `Delivers` says that an
outcome keeps it for every such event. Only a completed stored stream and an accepted answer of the inflater emit one: the
first is kept by what the completion has just read, the second by the invariants of the pending inflation. -/

namespace Sys2Proof.Machine

open Host (Outcome)

/-! ## What a complete stream delivers -/

/-- R222, R73: the consumer of pipeline `p` finds `len` bytes of a stream whose compression is `z`: it reads the whole
stream, whose CRC is the announced one, and the first byte tells the two kinds apart. -/
def Delivered (p : Pipe) (len : BitVec 32) (z : Bool) : Prop :=
  p.cdsState = .complete ∧ p.compressed = z ∧ deliveredLength p = some len ∧
    ∃ d, consumerRead p 0 p.totalSize.toNat = some d ∧ d.length = p.totalSize.toNat ∧ crc16 d = p.crcAnn ∧
      (z = false → len = p.totalSize ∧ deliveredStored p = some d ∧ d.head? ≠ some 0#8) ∧
      (z = true → len = p.inflSize ∧ d.head? = some 0#8)

/-- R222: a complete stored stream is delivered as it was received. -/
theorem delivered_stored {p : Pipe} {d : List Byte} (hstate : p.cdsState = .complete) (hcomp : p.compressed = false)
    (hd : memRead p 0 p.totalSize.toNat = some d) (hcrc : crc16 d = p.crcAnn) (h0 : d.head? ≠ some 0#8) :
    Delivered p p.totalSize false := by
  refine ⟨hstate, hcomp, by simp [deliveredLength, hstate, hcomp], d, consumerRead_eq_some.2 ⟨hstate, hd⟩,
    length_of_memRead hd, hcrc, fun _ => ⟨rfl, ?_, h0⟩, nofun⟩
  rw [deliveredStored, if_pos ⟨hstate, hcomp⟩, hd]

/-- R222, R223: once the inflater has succeeded, a stream that meets the invariants is delivered with the length
it announces in its first bytes. -/
theorem PipeInv.delivered_inflated {cfg : Config} {p : Pipe} (h : PipeInv cfg p) (hok : p.inflState = .inflOk) :
    Delivered p p.inflSize true := by
  obtain ⟨hstate, hcomp⟩ := h.inflating (by simp [hok])
  obtain ⟨-, -, d, hd, hcrc⟩ := h.complete hstate
  obtain ⟨-, hpos, hzero, -⟩ := h.compressed hcomp
  have hhead : d.head? = some 0#8 := by
    rw [List.head?_eq_getElem?, ← byteAt_of_memRead hd hpos, hzero]
  exact ⟨hstate, hcomp, by simp [deliveredLength, hstate, hcomp, hok], d, consumerRead_eq_some.2 ⟨hstate, hd⟩,
    length_of_memRead hd, hcrc, nofun, fun _ => ⟨rfl, hhead⟩⟩

/-! ## Operations on a pipeline -/

/-- Every `EV_CDS_COMPLETE` of the effect is of pipeline `c` and says what the effect leaves there. -/
def PipeEffect.Delivers (c : PipeId) (e : PipeEffect) : Prop :=
  ∀ c' len z, .cdsComplete c' len z ∈ e.events → c' = c ∧ Delivered e.pipe len z

section
variable {cfg : Config} {c : PipeId} {p : Pipe} {e : PipeEffect}

/-- An effect without the event promises nothing. -/
theorem PipeEffect.delivers_of_notMem (h : ∀ c' len z, .cdsComplete c' len z ∉ e.events) : e.Delivers c :=
  fun c' len z hmem => absurd hmem (h c' len z)

/-- R216, R181: the stored stream found at completion is delivered; a compressed one is not delivered yet. -/
theorem detectCompressed_delivers {d : List Byte} (h : detectCompressed c p = .ok e) (hstate : p.cdsState = .complete)
    (hd : memRead p 0 p.totalSize.toNat = some d) (hcrc : crc16 d = p.crcAnn) : e.Delivers c := by
  rcases detectCompressed_ok h with ⟨rfl, hfirst⟩ | ⟨-, -, -, rfl⟩ | ⟨-, -, _, _, _, _, -, rfl⟩
  · have h0 : d.head? ≠ some 0#8 := by
      intro hzero
      obtain ⟨d, rfl⟩ := List.head?_eq_some_iff.1 hzero
      have hlen : d.length + 1 = p.totalSize.toNat := length_of_memRead hd
      rcases hfirst with hempty | ⟨b, hb, hne⟩
      · omega
      · have hread : memRead p 0 1 = some [0#8] := memRead_take hd (by omega)
        rw [hb] at hread
        cases hread
        exact hne rfl
    intro c' len z hmem
    cases List.mem_singleton.1 hmem
    exact ⟨rfl, delivered_stored (p := (storedStream c p).pipe) hstate rfl hd hcrc h0⟩
  · exact PipeEffect.delivers_of_notMem (by simp)
  · exact PipeEffect.delivers_of_notMem (by simp)

/-- R178 to R183: a data frame that emits the event completes a stream of the announced CRC. -/
theorem dataFrame_delivers {hash : BitVec 16} {data : BitVec 64} (h : dataFrame c hash data p = .ok e) :
    e.Delivers c := by
  rcases dataFrame_ok h with ⟨-, rfl⟩ | ⟨-, -, rfl⟩ | ⟨-, -, -, happ⟩
  · exact PipeEffect.delivers_of_notMem (by simp)
  · exact PipeEffect.delivers_of_notMem (by simp)
  · rcases appendData_ok happ with ⟨-, rfl⟩ | ⟨-, r, hr, rfl⟩
    · exact PipeEffect.delivers_of_notMem (by simp)
    · obtain ⟨d, hd, ⟨hcrc, hdet⟩ | ⟨-, rfl⟩⟩ := complete_ok hr
      · intro c' len z hmem
        rcases List.mem_cons.1 hmem with he | hrest
        · cases he
        · exact detectCompressed_delivers hdet rfl hd hcrc c' len z hrest
      · exact PipeEffect.delivers_of_notMem (by simp [crcMismatch, PipeEffect.plain])

/-- R171: only a data frame of the stream can emit the event. -/
theorem StreamMove.delivers (h : StreamMove cfg c p e) : e.Delivers c := by
  cases h with
  | announce hash total crc flag =>
    rcases announce_cases cfg c hash total crc flag p with ⟨-, he⟩ | ⟨-, he⟩ <;> rw [he] <;>
      exact PipeEffect.delivers_of_notMem (by simp)
  | trigger => exact PipeEffect.delivers_of_notMem (by simp [Machine.trigger, PipeEffect.plain])
  | data hd => exact dataFrame_delivers hd
  | ignore => exact PipeEffect.delivers_of_notMem (by simp [ignoreFrame, PipeEffect.plain])

theorem ackPipe_delivers : (ackPipe c p).Delivers c := by
  rcases ackPipe_cases c p with ⟨-, -, he⟩ | ⟨-, he⟩ <;> rw [he] <;> exact PipeEffect.delivers_of_notMem (by simp)

/-- R219: an accepted answer delivers the stream it ends. -/
theorem PipeInv.inflateAnswer_delivers (h : PipeInv cfg p) (hp : p.inflState = .inflPending) (ok : Bool)
    (outLen : BitVec 32) : (inflateAnswer c ok outLen p).Delivers c := by
  rcases inflateAnswer_cases c ok outLen p with ⟨-, -, he⟩ | ⟨-, he⟩ <;> rw [he]
  · intro c' len z hmem
    cases List.mem_singleton.1 hmem
    exact ⟨rfl, (h.with_inflState (r := .inflOk) hp nofun).delivered_inflated rfl⟩
  · exact PipeEffect.delivers_of_notMem (by simp)

end

/-! ## Outcomes -/

/-- Every `EV_CDS_COMPLETE` of the outcome says what its pipeline then holds. -/
def Delivers (r : Outcome State Fault Refusal) : Prop :=
  ∀ t c len z, r = .next t → .cdsComplete c len z ∈ t.out.events → Delivered (t.pipe c.toNat) len z

section
variable {s : State} {c : PipeId}

theorem delivers_of_notMem {t : State} (h : ∀ c len z, .cdsComplete c len z ∉ t.out.events) : Delivers (.next t) :=
  fun _ c len z ht hmem => by
    cases ht
    exact absurd hmem (h c len z)

theorem routed_delivers (n : BitVec 5) (f : Frame) : Delivers (.next (s.begin.routed c n f)) :=
  delivers_of_notMem (by simp)

theorem emit_delivers {e : Event} (he : ∀ c len z, e ≠ .cdsComplete c len z) : Delivers (.next (s.begin.emit e)) :=
  delivers_of_notMem fun c len z => by simpa using (he c len z).symm

theorem delivers_refused (p : Port) : Delivers (.next (s.begin.badRequest p)) := delivers_of_notMem (by simp)

/-- An operation on a pipeline keeps its own promises; before it nothing is promised. -/
theorem delivers_applyPipe {e : PipeEffect} (he : e.Delivers c)
    (hs : ∀ c' len z, .cdsComplete c' len z ∉ s.out.events) : Delivers (.next (s.applyPipe c e)) := by
  intro t c' len z ht hmem
  cases ht
  rw [State.applyPipe_events, List.mem_append] at hmem
  obtain ⟨rfl, hdel⟩ := he c' len z (hmem.resolve_left (hs c' len z))
  rwa [State.applyPipe_pipe_same]

theorem finishPipe_delivers {n : BitVec 5} {f : Frame} {r : Except Fault PipeEffect}
    (hr : ∀ e, r = .ok e → e.Delivers c) : Delivers ((s.begin.routed c n f).finishPipe c r) := by
  intro t c' len z ht hmem
  obtain ⟨e, he, rfl⟩ := State.finishPipe_next ht
  exact delivers_applyPipe (hr e he) (by simp) _ c' len z rfl hmem

/-- R111: a unit that is not carried out emits nothing. -/
theorem rxGate_delivers {k : State → Outcome State Fault Refusal} (hk : Delivers (k s.begin)) :
    Delivers (rxGate c s k) := by
  rcases rxGate_cases c s k with ⟨-, -, he⟩ | ⟨-, -, he⟩ | ⟨-, he⟩ <;> rw [he]
  · exact hk
  · exact delivers_of_notMem (by simp)
  · exact delivers_refused .rxu

theorem streamFrame_delivers {f : Frame} {op : Config → Pipe → Except Fault PipeEffect}
    (hop : ∀ e, op s.cfg (s.pipe c.toNat) = .ok e → StreamMove s.cfg c (s.pipe c.toNat) e) :
    Delivers (streamFrame c f op s) :=
  rxGate_delivers (finishPipe_delivers fun e he => (hop e he).delivers)

/-- R115: the 13 bytes of an RX unit can complete a stream only as a frame of the stream. -/
theorem receiveFrame_delivers (w : WireWord) : Delivers (receiveFrame c w s.begin) := by
  unfold receiveFrame
  split
  · exact delivers_of_notMem (by simp)
  · rename_i f _
    rcases dispatch_cases c f s.begin with ⟨-, hd⟩ | ⟨-, hd⟩ | ⟨-, -, hd⟩ <;> rw [hd]
    · exact delivers_of_notMem (by simp)
    · exact finishPipe_delivers fun e he => (cdsStep_streamMove he).delivers
    · exact delivers_of_notMem (by simp)

/-- R100: a request with one test on its operands emits nothing but the refusal where the test fails. -/
theorem delivers_request {ok : Bool} {p : Port} {r : Outcome State Fault Refusal} (hr : ok = true → Delivers r) :
    Delivers (if ok then r else .next (s.begin.badRequest p)) := by
  cases ok
  · exact delivers_refused p
  · exact hr rfl

theorem controlPipe_delivers {f : Pipe → PipeEffect} (hf : (f (s.pipe c.toNat)).Delivers c) :
    Delivers (controlPipe c f s) :=
  delivers_request fun _ => delivers_applyPipe hf (by simp)

theorem execInflDone_delivers {cfg : Config} (h : PipeInv cfg (s.pipe c.toNat)) (ok : Bool) (outLen : BitVec 32) :
    Delivers (execInflDone c ok outLen s) :=
  delivers_request fun haccept => by
    obtain ⟨-, hp⟩ := Bool.and_eq_true_iff.1 haccept
    exact delivers_applyPipe (h.inflateAnswer_delivers (beq_iff_eq.1 hp) ok outLen) (by simp)

theorem lockOperation_delivers (op : LockOp) (f : ObjectId → LockEntry → Option LockEntry) (item : BitVec 16)
    (o : ObjectId) : Delivers (.next (lockOperation op f item o s)) := by
  rcases lockOperation_cases op f item o s with ⟨-, he⟩ | ⟨-, -, ⟨-, he⟩ | ⟨-, he⟩ | ⟨new, -, -, he⟩⟩ <;> rw [he]
  · exact delivers_refused .lk
  all_goals exact delivers_of_notMem (by simp)

theorem execSetOrient_delivers (k : BitVec 16) (o : Bool) (loco : ObjectId) : Delivers (execSetOrient k o loco s) := by
  refine delivers_request fun _ => ?_
  split_ifs
  · exact delivers_of_notMem fun _ _ _ => nofun
  · exact delivers_of_notMem (by simp)
  · exact delivers_of_notMem (by simp)

theorem execEncode_delivers (c : PipeId) (id : BitVec 29) (len : BitVec 4) (payload : BitVec 64) :
    Delivers (execEncode c id len payload s) := by
  unfold execEncode
  split_ifs
  · exact delivers_of_notMem fun _ _ _ => nofun
  · exact delivers_refused .tx
  · exact delivers_refused .tx

/-- R222: where the invariants hold, every instruction's `EV_CDS_COMPLETE` is truthful; only `INFL_DONE` needs them. -/
theorem exec_delivers (h : ∀ c, PipeInv s.cfg (s.pipe c)) (i : Instr) : Delivers (exec i s) := by
  unfold exec
  cases i with
  | system c | discovery c | bind c | verify c | speed c | direction c | function c | readConfig c | writeConfig c
  | accSwitch c | s88A c | s88B c | ping c | bootloader c | cfgStatus c | vendor1E c | vendor1F c | vendor20 c
  | vendor22 c => exact rxGate_delivers (k := fun s => .next (s.routed c _ _)) (routed_delivers _ _)
  | illen | unknown | rxBadsize => exact rxGate_delivers (emit_delivers nofun)
  | rxTimeout => exact rxGate_delivers (delivers_of_notMem (by simp))
  | rxClosed | rxError => exact rxGate_delivers (delivers_of_notMem (by simp [connectionDead]))
  | cdsAnn6 | cdsAnn7 => exact streamFrame_delivers fun e he => by cases he; exact .announce ..
  | cdsTrig => exact streamFrame_delivers fun e he => by cases he; exact .trigger _
  | cdsShort => exact streamFrame_delivers fun e he => by cases he; exact .ignore _
  | cdsData => exact streamFrame_delivers fun e he => .data he
  | rxFrame c w => exact rxGate_delivers (receiveFrame_delivers w)
  | isinuse | canSetOrient => exact delivers_request fun _ => delivers_of_notMem fun _ _ _ => nofun
  | reserve | lock | release => exact lockOperation_delivers _ _ _ _
  | setOrient k o loco => exact execSetOrient_delivers k o loco
  | reset => exact delivers_of_notMem fun _ _ _ => nofun
  | pipeStart | pipeStop => exact controlPipe_delivers (PipeEffect.delivers_of_notMem (by simp [startPipe, stopPipe]))
  | cdsAck => exact controlPipe_delivers ackPipe_delivers
  | inflDone c ok outLen => exact execInflDone_delivers (h c.toNat) ok outLen
  | encode c id len payload => exact execEncode_delivers c id len payload

end

/-- Settles O59: `Delivered` is what the statement says of the event's pipeline. -/
theorem deliveredAtComplete : Obligations.DeliveredAtComplete :=
  fun i _ t c len z hs h hmem => exec_delivers hs.pipes i t c len z h hmem

end Sys2Proof.Machine
end

section
/-! SUPPORT. 45_lock_fsm.md: the resource locks. `lockRule_eq_lockTable` says once that the operations have the table of
R239. Mutual exclusion (R241) and consistency (R244) are read off its columns and carried along instruction sequences and
runs, in which only the `lock` and `reset` moves of `Effect` write an entry. -/

namespace Sys2Proof.Machine

/-! ## The table of an entry -/

section
variable {op : LockOp} {o : ObjectId} {e new : LockEntry}

/-- R239: the clauses of R232 to R234, by the column of the table. -/
theorem lockRule_eq_lockTable (op : LockOp) (o : ObjectId) (e : LockEntry) : lockRule op o e = lockTable op e o := by
  obtain ⟨state, owner⟩ := e
  by_cases ho : o.isSet = true
  · by_cases heq : o = owner
    · subst heq
      cases op with
      | reserve => cases state <;> simp [lockRule, reserveEntry, lockTable, ho]
      | lock => cases state <;> simp [lockRule, lockEntry, lockTable, ho]
      | release => simp [lockRule, releaseEntry, lockTable, ho]
    · have heq' : owner ≠ o := Ne.symm heq
      cases op with
      | reserve =>
        cases hs : owner.isSet
        · cases state <;> simp [lockRule, reserveEntry, lockTable, ho, heq, heq', hs]
        · simp [lockRule, reserveEntry, lockTable, ho, heq, heq', hs]
      | lock => simp [lockRule, lockEntry, lockTable, ho, heq, heq']
      | release => simp [lockRule, releaseEntry, lockTable, ho, heq, heq']
  · cases op <;> simp [lockRule, reserveEntry, lockEntry, releaseEntry, lockTable, ho]

/-- R239: every operation of a set owner fails on an entry that another holds. -/
theorem lockRule_of_other (op : LockOp) (ho : o.isSet = true) (he : e.owner.isSet = true) (hne : o ≠ e.owner) :
    lockRule op o e = none := by
  rw [lockRule_eq_lockTable]
  cases op <;> simp [lockTable, ho, he, hne]

/-- R239: a succeeding operation leaves an entry of its set owner, as it was or in a new state, or it is a `RELEASE` by
the owner or by none, which frees the entry. -/
theorem lockRule_some (h : lockRule op o e = some new) :
    (o.isSet = true ∧ new.owner = o ∧ (new = e ∨ new.lockState = .reserved ∨ new.lockState = .hardLocked)) ∨
    (op = .release ∧ (o.isSet = false ∨ o = e.owner) ∧ new = .freeUnset) := by
  rw [lockRule_eq_lockTable] at h
  unfold lockTable at h
  split at h
  · rename_i ho
    cases op <;> cases h
    exact .inr ⟨rfl, .inl ho, rfl⟩
  · rename_i ho
    rw [Bool.not_eq_false] at ho
    split at h
    · rename_i heq
      subst heq
      split at h <;> cases h
      · exact .inl ⟨ho, rfl, .inr (.inl rfl)⟩
      · exact .inl ⟨ho, rfl, .inl rfl⟩
      · exact .inl ⟨ho, rfl, .inr (.inr rfl)⟩
      · exact .inl ⟨ho, rfl, .inl rfl⟩
      · exact .inr ⟨rfl, .inr rfl, rfl⟩
    · cases op <;> simp only [reduceCtorEq] at h
      split at h <;> cases h
      exact .inl ⟨ho, rfl, .inr (.inl rfl)⟩

end

/-! ## The lock port -/

theorem exec_lockInstr (op : LockOp) (item : BitVec 16) (o : ObjectId) (s : State) :
    exec (lockInstr op item o) s = .next (lockOperation op (lockRule op) item o s) := by
  cases op <;> rfl

theorem entryInUse_eq (e : LockEntry) : entryInUse e = decide (e.lockState ≠ .free ∨ e.owner.isSet = true) := by
  rw [entryInUse, Bool.decide_or, Bool.decide_eq_true]
  cases e.lockState <;> rfl

/-- Settles O46: a valid request fails, succeeds without a change or succeeds with one, and the table says which. -/
theorem lockPortTable : Obligations.LockPortTable := by
  intro s item hlock hlt e
  have hitem : s.hasItem item = true := (s.hasItem_iff item).2 ⟨hlock, hlt⟩
  refine ⟨fun op o ho => ⟨_, exec_lockInstr op item o s, ?_⟩, ?_⟩
  · rw [← lockRule_eq_lockTable]
    rcases lockOperation_cases op (lockRule op) item o s with
      ⟨hbad, -⟩ | ⟨-, -, ⟨hr, he⟩ | ⟨hr, he⟩ | ⟨new, hr, hne, he⟩⟩
    · simp [hitem, ho] at hbad
    · rw [he, hr]
      exact ⟨rfl, fun _ _ => rfl, rfl, rfl⟩
    · rw [he, hr]
      exact ⟨rfl, fun _ _ => rfl, rfl, by rw [if_pos rfl]; rfl⟩
    · rw [he, hr]
      exact ⟨rfl, fun k hk => (State.setLock_lock ..).trans (if_neg hk), State.setLock_lock_same .., by
        rw [if_neg hne]; rfl⟩
  · show execIsinuse item s = _
    rw [execIsinuse, if_pos hitem, entryInUse_eq]
    rfl

/-! ## Mutual exclusion -/

/-- R237: a request that its rule fails, or that is refused, answers `ok = 0` and leaves the table. -/
theorem lockOperation_fails {op : LockOp} {item : BitVec 16} {o : ObjectId} {s : State}
    (h : lockRule op o (s.lock item.toNat) = none) :
    (lockOperation op (lockRule op) item o s).locks = s.locks ∧
      (lockOperation op (lockRule op) item o s).out.lockResponse = some ⟨false, false⟩ := by
  rcases lockOperation_cases op (lockRule op) item o s with
    ⟨-, he⟩ | ⟨-, -, ⟨-, he⟩ | ⟨hr, -⟩ | ⟨_, hr, -⟩⟩
  · rw [he]
    exact ⟨rfl, rfl⟩
  · rw [he]
    exact ⟨rfl, rfl⟩
  all_goals cases h.symm.trans hr

/-- R238: a request that answers `ok = 1` leaves in its entry what its rule answers. -/
theorem lockOperation_succeeds {op : LockOp} {item : BitVec 16} {o : ObjectId} {s : State}
    (h : (lockOperation op (lockRule op) item o s).out.lockResponse = some ⟨true, false⟩) :
    lockRule op o (s.lock item.toNat) = some ((lockOperation op (lockRule op) item o s).lock item.toNat) := by
  rcases lockOperation_cases op (lockRule op) item o s with
    ⟨-, he⟩ | ⟨-, -, ⟨-, he⟩ | ⟨hr, he⟩ | ⟨new, hr, -, he⟩⟩ <;> rw [he] at h ⊢
  · cases h
  · cases h
  · exact hr
  · exact hr.trans (congrArg some (State.setLock_lock_same ..).symm)

/-- R241: an instruction leaves an item's owner if it is neither `RESET` nor a `RELEASE` that frees the item. -/
theorem exec_keeps_owner {i : Instr} {item : BitVec 16} {s t : State} (h : exec i s = .next t)
    (hset : (s.lock item.toNat).owner.isSet = true) (hreset : i ≠ .reset)
    (howner : i ≠ .release item (s.lock item.toNat).owner) (hunset : i ≠ .release item .unset) :
    (t.lock item.toNat).owner = (s.lock item.toNat).owner := by
  cases exec_effect h with
  | quiet | pipe | orient => rfl
  | reset => exact absurd rfl hreset
  | @lock op item' o new out _ ho hnew =>
    show ((s.setLock item'.toNat new).lock item.toNat).owner = _
    rw [State.setLock_lock]
    split
    · rename_i heq
      obtain rfl : item = item' := BitVec.eq_of_toNat_eq heq
      rcases lockRule_some hnew with ⟨hos, hown, -⟩ | ⟨rfl, ho' | rfl, -⟩
      · by_contra hne
        rw [lockRule_of_other op hos hset (hown ▸ hne)] at hnew
        cases hnew
      · rcases ObjectId.wf_cases ho with ⟨rfl, -⟩ | ⟨hos, -⟩
        · exact absurd rfl hunset
        · exact absurd (hos.symm.trans ho') Bool.noConfusion
      · exact absurd rfl howner
    · rfl

theorem execAll_cons {i : Instr} {is : List Instr} {s u : State} (h : execAll (i :: is) s = .next u) :
    ∃ t, exec i s = .next t ∧ execAll is t = .next u := by
  cases hi : exec i s <;> rw [execAll, hi] at h
  · exact ⟨_, rfl, h⟩
  · cases h
  · cases h

theorem execAll_keeps_owner {item : BitVec 16} {a : ObjectId} (ha : a.isSet = true) {is : List Instr}
    (hreset : .reset ∉ is) (howner : .release item a ∉ is) (hunset : .release item .unset ∉ is) {s t : State}
    (hs : (s.lock item.toNat).owner = a) (h : execAll is s = .next t) : (t.lock item.toNat).owner = a := by
  induction is generalizing s with
  | nil =>
    cases h
    exact hs
  | cons i is ih =>
    obtain ⟨u, hu, ht⟩ := execAll_cons h
    rw [List.mem_cons, not_or] at hreset howner hunset
    subst hs
    exact ih hreset.2 howner.2 hunset.2
      (exec_keeps_owner hu ha (Ne.symm hreset.1) (Ne.symm howner.1) (Ne.symm hunset.1)) ht

/-- Settles O47: a succeeded `RESERVE` gives the entry to its owner, every instruction of the sequence leaves it there,
and the table fails every other set owner. -/
theorem mutualExclusion : Obligations.MutualExclusion := by
  intro item a ha
  refine ⟨fun s t h hok => ?_, fun s t is hs h hreset howner hunset => ?_⟩
  · cases (exec_lockInstr .reserve item a s).symm.trans h
    rcases lockRule_some (lockOperation_succeeds hok) with ⟨-, hown, -⟩ | ⟨hop, -⟩
    · exact hown
    · cases hop
  · have hown : (t.lock item.toNat).owner = a := execAll_keeps_owner ha hreset howner hunset hs h
    refine ⟨hown, fun b op hb hba => ⟨_, exec_lockInstr op item b t, ?_⟩⟩
    exact lockOperation_fails (lockRule_of_other op hb (hown ▸ ha) (hown ▸ hba))

/-! ## Invariants of the entries -/

theorem Effect.cfg {s t : State} {i : Instr} (h : Effect s i t) : t.cfg = s.cfg := by
  cases h <;> rfl

/-- R301: a step leaves the configuration. -/
theorem step_cfg {s t : State} (h : step s = .next t) : t.cfg = s.cfg := by
  rcases step_cases s with ⟨-, he⟩ | ⟨before, w, after, -, -, -, ⟨i, -, he⟩ | ⟨r, -, he⟩⟩ <;> rw [he] at h
  · cases h
    rfl
  · exact (exec_effect h).cfg
  · cases h
    rfl

/-- R244: the entry (`Free`, unset) has the property `P`, and every succeeding operation keeps it. -/
structure EntryInvariant (P : LockEntry → Prop) : Prop where
  free : P .freeUnset
  rule : ∀ {op : LockOp} {o : ObjectId} {e new : LockEntry}, lockRule op o e = some new → P e → P new

section
variable {P : LockEntry → Prop}

/-- R131, R244: every instruction but `RESET` keeps an invariant of the entries. -/
theorem EntryInvariant.exec (hP : EntryInvariant P) {i : Instr} {s t : State} (h : exec i s = .next t)
    (hreset : i ≠ .reset) {k : Nat} (hs : P (s.lock k)) : P (t.lock k) := by
  cases exec_effect h with
  | quiet | pipe | orient => exact hs
  | reset => exact absurd rfl hreset
  | @lock op item o new out _ _ hnew =>
    show P ((s.setLock item.toNat new).lock k)
    rw [State.setLock_lock]
    split
    · subst_vars
      exact hP.rule hnew hs
    · exact hs

/-- A table lists entries with the property and reads as the free entry elsewhere. -/
theorem EntryInvariant.table (hP : EntryInvariant P) {m : List (Nat × LockEntry)} (hm : ∀ e ∈ m, P e.2) (k : Nat) :
    P (Table.get .freeUnset m k) := by
  rcases Table.get_eq_or_mem .freeUnset m k with hd | hmem
  · rw [hd]
    exact hP.free
  · exact hm _ hmem

/-- R300: after `RESET` the entries are those of `LOCK_INIT`, or as they were where there is no lock table. -/
theorem EntryInvariant.resetBlock (hP : EntryInvariant P) {s : State} (hinit : ∀ e ∈ s.cfg.lockInit, P e.2)
    (hs : ∀ k, P (s.lock k)) (k : Nat) : P (s.resetBlock.lock k) := by
  rw [State.resetBlock_lock]
  split
  · exact hP.table hinit k
  · exact hs k

theorem EntryInvariant.step (hP : EntryInvariant P) {s t : State} (hinit : ∀ e ∈ s.cfg.lockInit, P e.2)
    (hs : ∀ k, P (s.lock k)) (h : Machine.step s = .next t) (k : Nat) : P (t.lock k) := by
  rcases step_cases s with ⟨-, he⟩ | ⟨before, w, after, -, -, -, ⟨i, -, he⟩ | ⟨r, -, he⟩⟩ <;> rw [he] at h
  · cases h
    exact hs k
  · by_cases hr : i = .reset
    · subst hr
      cases h
      exact hP.resetBlock (s := State.begin _) hinit hs k
    · exact hP.exec h hr (hs k)
  · cases h
    exact hs k

/-- R244: what `LOCK_INIT` gives the entries of a run and every operation keeps holds in the whole run. -/
theorem EntryInvariant.reaches (hP : EntryInvariant P) {cfg : Config} {ws : List PortWord} {t : State}
    (hinit : ∀ e ∈ cfg.lockInit, P e.2) (h : Reaches (poweredWith cfg ws) t) : t.cfg = cfg ∧ ∀ k, P (t.lock k) := by
  induction h with
  | refl =>
    refine ⟨rfl, ?_⟩
    show ∀ k, P ((State.powerOn cfg).lock k)
    rw [powerOn_eq_resetBlock]
    exact hP.resetBlock hinit fun _ => hP.free
  | step _ hstep ih =>
    obtain ⟨hcfg, hlocks⟩ := ih
    exact ⟨(step_cfg hstep).trans hcfg, hP.step (hcfg ▸ hinit) hlocks hstep⟩

end

/-- R244: a freed entry has neither state nor owner, one that an operation takes or holds has both. -/
theorem consistentEntry_invariant : EntryInvariant consistentEntry where
  free := iff_of_false (absurd rfl) Bool.noConfusion
  rule h he := by
    rcases lockRule_some h with ⟨ho, rfl, rfl | hnew | hnew⟩ | ⟨-, -, rfl⟩
    · exact he
    · exact iff_of_true (by simp [hnew]) ho
    · exact iff_of_true (by simp [hnew]) ho
    · exact iff_of_false (absurd rfl) Bool.noConfusion

/-- R240: no operation makes an entry `SoftLocked`. -/
theorem notSoftLocked_invariant : EntryInvariant (·.lockState ≠ .softLocked) where
  free := LockState.noConfusion
  rule h he := by
    rcases lockRule_some h with ⟨-, -, rfl | hnew | hnew⟩ | ⟨-, -, rfl⟩
    · exact he
    · simp [hnew]
    · simp [hnew]
    · exact LockState.noConfusion

/-- Settles O48: both properties are kept by every operation, and the default `LOCK_INIT` lists no entry. -/
theorem lockInvariant : Obligations.LockInvariant :=
  ⟨fun _ _ _ _ h hr => consistentEntry_invariant.exec h hr,
    fun _ _ _ hinit h => (consistentEntry_invariant.reaches hinit h).2,
    fun _ _ _ hinit h => (notSoftLocked_invariant.reaches (by simp [hinit]) h).2⟩

end Sys2Proof.Machine
end

section
/-! SUPPORT. 46_cluster_option.md: the cluster port. `canSet_iff` says once that the block's test is R253's. What a request
answers is stated per branch of R254, and what a succeeded `SET_ORIENT` has done is said by `setOrient_succeeds`, from which
R257 and R258 are read off. -/

namespace Sys2Proof.Machine

/-! ## R252, R253: the test -/

theorem heldByOther_iff (s : State) (m : Nat × Bool) (loco : ObjectId) :
    heldByOther s m loco = true ↔ HeldByOther s m.1 loco := by
  simp [heldByOther, HeldByOther, imp_iff_not_or]

theorem blocks_iff (s : State) (o : Bool) (loco : ObjectId) (m : Nat × Bool) :
    blocks s o loco m = true ↔ HeldByOther s m.1 loco ∧ (s.orientOf m.1 ^^ m.2) ≠ (o ^^ m.2) := by
  rw [blocks, Bool.and_eq_true, heldByOther_iff, bne_iff_ne, effOrient, reqOrient]

/-- R253: the present orientation can always be set, another one unless a member blocks it. -/
theorem canSet_iff (s : State) (k : Nat) (o : Bool) (loco : ObjectId) :
    canSet s k o loco = true ↔ o = s.clOrientOf k ∨ Unblocked s k o loco := by
  simp only [canSet, Unblocked, Bool.or_eq_true, beq_iff_eq, List.all_eq_true, Bool.not_eq_true', ← blocks_iff,
    Bool.not_eq_true]

theorem State.clusterRequestOk_iff (s : State) (k : BitVec 16) (loco : ObjectId) :
    s.clusterRequestOk k loco = true ↔ ClusterRequest s k loco := by
  simp [State.clusterRequestOk, ClusterRequest, and_assoc]

/-! ## The cluster port -/

/-- Settles O49: the answer is `canSet`. -/
theorem canSetAnswers : Obligations.CanSetAnswers := fun s k o loco hreq =>
  ⟨canSet s k.toNat o loco, if_pos ((s.clusterRequestOk_iff k loco).2 hreq), canSet_iff s k.toNat o loco⟩

section
variable {s t : State} {k : BitVec 16} {o : Bool} {loco : ObjectId}

/-- R100: a `SET_ORIENT` that the block does not take. -/
theorem setOrient_refused (hreq : ¬ClusterRequest s k loco) :
    exec (.setOrient k o loco) s = .next { s with out := refusal .cl } := by
  show execSetOrient k o loco s = _
  rw [execSetOrient, if_neg (mt (s.clusterRequestOk_iff k loco).1 hreq), badRequest_eq]

/-- R254: the cluster has the orientation already. -/
theorem setOrient_unchanged (hreq : ClusterRequest s k loco) (ho : o = s.clOrientOf k.toNat) :
    exec (.setOrient k o loco) s = .next { s with out := { Outputs.empty with clusterOk := some true } } := by
  show execSetOrient k o loco s = _
  rw [execSetOrient, if_pos ((s.clusterRequestOk_iff k loco).2 hreq), if_pos ho]
  rfl

/-- R254: a member blocks the change. -/
theorem setOrient_blocked (hreq : ClusterRequest s k loco) (ho : o ≠ s.clOrientOf k.toNat)
    (hblocked : ¬Unblocked s k.toNat o loco) :
    exec (.setOrient k o loco) s =
      .next { s with out := { eventsOnly [.orientBlocked k o loco] with clusterOk := some false } } := by
  have hcan : ¬canSet s k.toNat o loco = true := fun h => ((canSet_iff ..).1 h).elim ho hblocked
  show execSetOrient k o loco s = _
  rw [execSetOrient, if_pos ((s.clusterRequestOk_iff k loco).2 hreq), if_neg ho, if_neg hcan]
  rfl

/-- R254: the members are forced. -/
theorem setOrient_forced (hreq : ClusterRequest s k loco) (ho : o ≠ s.clOrientOf k.toNat)
    (hfree : Unblocked s k.toNat o loco) :
    exec (.setOrient k o loco) s = .next { s.orientChanged k.toNat o with
      out := { eventsOnly [.orientChanged k o loco] with clusterOk := some true } } := by
  have hcan : canSet s k.toNat o loco = true := (canSet_iff ..).2 (.inr hfree)
  show execSetOrient k o loco s = _
  rw [execSetOrient, if_pos ((s.clusterRequestOk_iff k loco).2 hreq), if_neg ho, if_pos hcan]
  rfl

/-- R254: a `SET_ORIENT` that answers ok found the orientation as it is, or forced members of which none blocks it. -/
theorem setOrient_succeeds (h : exec (.setOrient k o loco) s = .next t) (hok : t.out.clusterOk = some true) :
    (o = s.clOrientOf k.toNat ∧ ∃ out, t = { s with out := out }) ∨
    (Unblocked s k.toNat o loco ∧ ∃ out, t = { s.orientChanged k.toNat o with out := out }) := by
  by_cases hreq : ClusterRequest s k loco
  · by_cases ho : o = s.clOrientOf k.toNat
    · cases (setOrient_unchanged hreq ho).symm.trans h
      exact .inl ⟨ho, _, rfl⟩
    · by_cases hfree : Unblocked s k.toNat o loco
      · cases (setOrient_forced hreq ho hfree).symm.trans h
        exact .inr ⟨hfree, _, rfl⟩
      · cases (setOrient_blocked hreq ho hfree).symm.trans h
        cases hok
  · cases (setOrient_refused hreq).symm.trans h
    cases hok

/-! ## R257, R258: what a succeeded `SET_ORIENT` leaves -/

/-- R254, R256: the members have the requested orientation because the cluster had it, or because they were forced. -/
theorem setOrient_members (hs : Inv s) (h : exec (.setOrient k o loco) s = .next t) (hok : t.out.clusterOk = some true)
    {m : Nat × Bool} (hm : m ∈ clusterMembersOf s.cfg k.toNat) : t.orientOf m.1 = o := by
  rcases setOrient_succeeds h hok with ⟨ho, out, rfl⟩ | ⟨-, out, rfl⟩
  · exact (hs.clusters k.toNat m hm).trans ho.symm
  · exact (s.orientChanged_orientOf k.toNat o m.1).trans (if_pos (List.mem_map_of_mem hm))

/-- R253: an item under another holder has, as a member, the orientation that an unblocked request asks for. -/
theorem Unblocked.orientOf_eq {j i : Nat} (h : Unblocked s j o loco) (hheld : HeldByOther s i loco)
    (hi : i ∈ (clusterMembersOf s.cfg j).map Prod.fst) : s.orientOf i = o := by
  obtain ⟨m, hm, rfl⟩ := List.mem_map.1 hi
  by_contra hne
  exact h m hm ⟨hheld, mt Bool.xor_left_inj.1 hne⟩

end

/-! ## The statements -/

/-- Settles O50: one clause for each branch of a request that is taken. -/
theorem setOrientEffect : Obligations.SetOrientEffect := fun s k o _ hreq =>
  ⟨setOrient_unchanged hreq, setOrient_blocked hreq, fun ho hfree => ⟨_, setOrient_forced hreq ho hfree, rfl,
    s.orientChanged_orientOf k.toNat o, fun j => s.orientChanged_clOrientOf k.toNat j o, rfl⟩⟩

/-- Settles O51: members with the requested orientation have the required effective one. -/
theorem clusterConsistency : Obligations.ClusterConsistency := fun _ _ _ _ _ hs h hok m hm =>
  congrArg (· ^^ m.2) (setOrient_members hs h hok hm)

/-- Settles O52: only members are forced, and a held one has the requested orientation already. -/
theorem holderSafety : Obligations.HolderSafety := by
  intro s t k o loco h hok i hheld
  rcases setOrient_succeeds h hok with ⟨-, out, rfl⟩ | ⟨hfree, out, rfl⟩
  · rfl
  · show (s.orientChanged k.toNat o).orientOf i = s.orientOf i
    rw [State.orientChanged_orientOf]
    split
    · next hi => exact (hfree.orientOf_eq hheld hi).symm
    · rfl

end Sys2Proof.Machine
end

section
/-! SUPPORT. 60_exceptions.md: the code and the class of every event (R267). -/

namespace Sys2Proof.Machine

/-- Settles O60: both columns of the table depend on the kind of the event alone, so its operands stay variables. -/
theorem eventCodes : Obligations.EventCodes := by
  intro c n l p hd r k t u x y m v ig ir e e' op o dk
  rfl

end Sys2Proof.Machine
end

section
/-! SUPPORT. 70_reset_and_hazards.md: what `RESET`, `PIPE_START` and `PIPE_STOP` do, and what every instruction leaves
(R300 to R305). -/

namespace Sys2Proof.Machine

/-! ## What every instruction leaves -/

/-- Settles O20: every instruction makes one of the moves, and none writes the configuration or the waiting words. -/
theorem configConstant : Obligations.ConfigConstant := fun _ _ _ h => ⟨(exec_effect h).cfg, (exec_effect h).pending⟩

/-! ## `RESET` -/

/-- R300: without the lock option `RESET` leaves the lock table. -/
theorem State.resetBlock_locks_of_noLock {s : State} (h : s.cfg.hasLock = false) : s.resetBlock.locks = s.locks := by
  simp [State.resetBlock, h]

/-- R300: without the cluster option `RESET` leaves the orientation bits of the items and of the clusters. -/
theorem State.resetBlock_orient_of_noCluster {s : State} (h : s.cfg.hasCluster = false) :
    s.resetBlock.orient = s.orient ∧ s.resetBlock.clOrient = s.clOrient := by
  simp [State.resetBlock, h]

/-- Settles O19: the tables of a present option read as after reset, those of an absent one are the old tables. -/
theorem resetStep : Obligations.ResetStep := by
  intro s
  refine ⟨s.begin.resetBlock, rfl, rfl, rfl, rfl, fun _ => rfl, fun hlock i => ?_, fun hno => ?_, fun hcl i => ⟨?_, ?_⟩,
    fun hno => ?_⟩
  · exact (State.resetBlock_lock _ i).trans (if_pos hlock)
  · exact State.resetBlock_locks_of_noLock (s := s.begin) hno
  · exact (State.resetBlock_orientOf _ i).trans (if_pos hcl)
  · exact (State.resetBlock_clOrientOf _ i).trans (if_pos hcl)
  · exact State.resetBlock_orient_of_noCluster (s := s.begin) hno

/-! ## `PIPE_START` and `PIPE_STOP` -/

/-- R304: a started pipeline keeps nothing of its session. -/
theorem startPipe_eq (p : Pipe) : startPipe p = ⟨{ Pipe.reset with run := true, alive := true }, [], none⟩ := rfl

/-- Settles O45: both are control operations on an existing pipeline that emit nothing. -/
theorem startStop : Obligations.StartStop := fun _ _ hc =>
  ⟨controlPipe_effect_of_hasPipe hc (startPipe_eq _), controlPipe_effect_of_hasPipe hc rfl⟩

end Sys2Proof.Machine
end
